-- ==== Sys2Proof/Word.lean ====
section
/-! DEFINITION. The two word sizes of the machine (00_scope.md R6): an 8-bit byte and a 16-bit address. -/

namespace Sys2Proof

/-- One byte: a general register, a memory location, an immediate, a port number (R6). -/
abbrev Byte := BitVec 8

/-- One 16-bit value: `PC`, `SP`, a register pair, a memory address (R6). -/
abbrev Word := BitVec 16

end Sys2Proof
end

