-- ==== Sys2Proof/Machine/Bytes.lean ====
section
/-! DEFINITION. Bytes of 16-bit values and bit fields of opcodes. -/

namespace Sys2Proof

/-- The 16-bit value with the given low and high byte, `B3 ++ B2` (00_scope.md R10, 20_memory.md R51). -/
def le16 (lo hi : Byte) : Word := hi ++ lo

/-- The high byte of a 16-bit value (`rh`, `PCh`; 00_scope.md R10). -/
def hiByte (w : Word) : Byte := w.extractLsb' 8 8

/-- The low byte of a 16-bit value (`rl`, `PCl`; 00_scope.md R10). -/
def loByte (w : Word) : Byte := w.extractLsb' 0 8

/-- Opcode bits 7:6, the quarter of the opcode map (30_encoding.md R91). -/
def fieldQuarter (b : Byte) : BitVec 2 := b.extractLsb' 6 2

/-- Opcode bits 5:3: `DDD`, `CCC`, `NNN`, `ooo` (30_encoding.md R83, R85). -/
def fieldMid (b : Byte) : BitVec 3 := b.extractLsb' 3 3

/-- Opcode bits 2:0: `SSS` (30_encoding.md R83). -/
def fieldLow (b : Byte) : BitVec 3 := b.extractLsb' 0 3

/-- Opcode bits 5:4: `rp` (30_encoding.md R83). -/
def fieldPair (b : Byte) : BitVec 2 := b.extractLsb' 4 2

/-- Opcode bit 3, which tells the two instructions of a pair column apart (30_encoding.md R83, formats `RP`, `RPQ`). -/
def fieldBit3 (b : Byte) : Bool := b.getLsbD 3

end Sys2Proof
end

