-- ==== Sys2Proof/Config.lean ====
section
/-! DEFINITION. The parameters the spec hands the model (00_scope.md R7, 92_eei_decisions.md), as plain data,
and the free values: opaque constants that nothing in Lean can evaluate. -/

namespace Sys2Proof
namespace Config

/-- `VARIANT` (00_scope.md R2). -/
inductive Variant where
  | i8080
  | i8085
deriving DecidableEq, Repr

/-- `ILLEGAL_POLICY` (46_interrupt_and_other.md R236): what an unused opcode does. -/
inductive IllegalPolicy where
  /-- `Fault`: the model does not define the step. -/
  | fault
  /-- `Alias`, offered for the I8080 only: the opcode behaves as another instruction. -/
  | aliased
deriving DecidableEq, Repr

/-- `EI_DELAY` (60_exceptions.md R266): 1 or 2. -/
inductive EiDelay where
  | one
  | two
deriving DecidableEq, Repr

/-- The number of instruction ends that `EI_DELAY` stands for. -/
def EiDelay.count : EiDelay → Nat
  | .one => 1
  | .two => 2

/-- `F_X_BITS` (10_state.md R29): the bits 5, 3, 1 of a pushed flag byte, given or drawn afresh. -/
inductive FlagXBits where
  | fixed (x5 x3 x1 : Bool)
  | drawn
deriving DecidableEq, Repr

/-- A function-valued parameter (R7): the spec's default, or a function of which nothing is known.
DESIGN CHOICE, log 4, 5, 6. -/
inductive FnParam where
  | standard
  | free
deriving DecidableEq, Repr

/-- What stands at an address (20_memory.md R58). -/
inductive MemKind where
  | ram
  | rom
  | unpopulated
  | device
deriving DecidableEq, Repr

/-- `size` addresses from `base` on, all of one kind (20_memory.md R58). A region does not wrap. -/
structure Region where
  base : Word
  size : Nat
  kind : MemKind
deriving DecidableEq, Repr

/-- One listed answer of `IO_IN` (45_io.md R220): the byte that the `IN` at this position of the run, counted from 0,
gets if it reads this port. -/
structure PortAnswer where
  position : Nat
  port     : Byte
  value    : Byte
deriving DecidableEq, Repr

/-- `RESET_STATE` (70_reset_and_hazards.md R300): what the RESET input assigns. The last five are the I8085's. -/
structure ResetState where
  pc        : Word
  inte      : Bool
  halted    : Bool
  eiPending : Nat
  m55       : Bool
  m65       : Bool
  m75       : Bool
  r75       : Bool
  sod       : Bool
deriving DecidableEq, Repr

/-- The default of `RESET_STATE` (R300). -/
def ResetState.standard : ResetState :=
  { pc := 0x0000#16, inte := false, halted := false, eiPending := 0,
    m55 := true, m65 := true, m75 := true, r75 := false, sod := false }

/-- The parameters of 00_scope.md R7. `ioIn` lists what is known of `IO_IN` (log 10), the oracle `INT_SOURCE` is a list in
the state's environment, and the initial contents that `MEM` gives are the state's memory. -/
structure Params where
  variant     : Variant
  illegal     : IllegalPolicy
  eiDelay     : EiDelay
  diOwnEnd    : Bool
  simMseLevel : Bool
  fxBits      : FlagXBits
  acAdd       : FnParam
  acSub       : FnParam
  acAna       : FnParam
  daa         : FnParam
  memMap      : List Region
  ioIn        : List PortAnswer
  resetState  : ResetState
deriving DecidableEq, Repr

/-- The defaults of 92_eei_decisions.md's table for a given `VARIANT`. -/
def Params.standard (v : Variant) : Params :=
  { variant := v, illegal := .fault, eiDelay := .two, diOwnEnd := false, simMseLevel := false,
    fxBits := match v with
      | .i8080 => .fixed false false true
      | .i8085 => .drawn
    acAdd := .standard, acSub := .standard, acAna := .standard, daa := .standard,
    memMap := [], ioIn := [], resetState := .standard }

/-- The variant of the state after reset, and the one the opcode table is decoded for.
DESIGN CHOICE, log 3: R2 and 92 D1 leave the value to the user of the model. -/
def resetVariant : Variant := .i8085

/-- What a memory address that nothing has written reads as. DESIGN CHOICE, log 2 (unsafe): 70 R301 leaves it open. -/
def unlistedByte : Byte := 0x00#8

/-- `AC_ADD` when nothing is assumed of it (41_arithmetic.md R131). -/
opaque freeAcAdd : Byte → Byte → Bool → Bool

/-- `AC_SUB` when nothing is assumed of it (41_arithmetic.md R131). -/
opaque freeAcSub : Byte → Byte → Bool → Bool

/-- `AC_ANA` when nothing is assumed of it (42_logical.md R161). -/
opaque freeAcAna : Byte → Byte → Bool

/-- `DAA_FN` when nothing is assumed of it (41_arithmetic.md R148): the result, the carry, the auxiliary carry. -/
opaque freeDaa : Byte → Bool → Bool → Byte × Bool × Bool

/-- The bits 5, 3, 1 of a pushed flag byte at a draw (10_state.md R29). -/
opaque freeFlagXBits : Nat → Bool × Bool × Bool

/-- The byte an unpopulated address or a device answers at a draw (20_memory.md R58, 93 U19). -/
opaque freeBusByte : Nat → Word → Byte

/-- `IO_IN` where no answer is listed: the byte for a position in the run and a port (45_io.md R220). -/
opaque freePortByte : Nat → Byte → Byte

/-- The level of `SID` at a draw, where no level is listed (47_i8085_extra.md R246). -/
opaque freeSid : Nat → Bool

end Config
end Sys2Proof
end

