-- ==== Sys2Proof/Machine/Memory.lean ====
section
/-! DEFINITION. Memory as a list of cells in one canonical form (10_state.md R37, 20_memory.md R50). -/

namespace Sys2Proof.Machine

/-- The bytes that differ from what an unlisted address reads as, by rising address. -/
abbrev Memory := List Host.Cell

/-- One past the last address (R37). -/
def memorySize : Nat := 65536

/-- The byte at an address. -/
def Memory.read (m : Memory) (a : Nat) : Byte :=
  match m with
  | [] => Config.unlistedByte
  | cell :: rest => if cell.1 = a then cell.2 else Memory.read rest a

/-- The memory without a cell for an address. -/
def Memory.erase (m : Memory) (a : Nat) : Memory := m.filter (fun cell => cell.1 != a)

/-- A cell put before the first one of a higher address. -/
def Memory.insert (m : Memory) (a : Nat) (v : Byte) : Memory :=
  match m with
  | [] => [(a, v)]
  | cell :: rest => if a < cell.1 then (a, v) :: cell :: rest else cell :: Memory.insert rest a v

/-- A byte stored at an address; storing what an unlisted address reads as removes the cell. -/
def Memory.write (m : Memory) (a : Nat) (v : Byte) : Memory :=
  if v = Config.unlistedByte then m.erase a else (m.erase a).insert a v

/-- The canonical form of the cells from the address `lo` on. -/
def Memory.wfFrom (lo : Nat) : Memory → Bool
  | [] => true
  | cell :: rest =>
    decide (lo ≤ cell.1) && decide (cell.1 < memorySize) && decide (cell.2 ≠ Config.unlistedByte)
      && Memory.wfFrom (cell.1 + 1) rest

/-- The canonical form: addresses strictly rising and inside the address space, no cell that equals an unlisted one. -/
def Memory.wf (m : Memory) : Bool := m.wfFrom 0

end Sys2Proof.Machine
end

