-- ==== Sys2Proof/Machine/State.lean ====
section
/-! DEFINITION. The machine's state as plain data (10_state.md), its reset value, and the reasons a step can stop. -/

namespace Sys2Proof.Machine

/-- The seven 8-bit general registers (10_state.md R20). -/
@[ext]
structure Regs where
  a : Byte
  b : Byte
  c : Byte
  d : Byte
  e : Byte
  h : Byte
  l : Byte
deriving DecidableEq, Repr

/-- The five flags (10_state.md R26). `ac` is the source's A flag. -/
@[ext]
structure Flags where
  s  : Bool
  z  : Bool
  ac : Bool
  p  : Bool
  cy : Bool
deriving DecidableEq, Repr

/-- The I8085's mask bits, RST 7.5 latch and serial output latch (10_state.md R33). On the I8080 nothing uses them. -/
@[ext]
structure Masks where
  m55 : Bool
  m65 : Bool
  m75 : Bool
  r75 : Bool
  sod : Bool
deriving DecidableEq, Repr

/-- The I8085's own interrupt inputs (60_exceptions.md R274). -/
inductive Restart where
  | trap | rst75 | rst65 | rst55
deriving DecidableEq, Repr

/-- An accepted interrupt: a device-supplied instruction (60_exceptions.md R264) or an internal restart (R275). -/
inductive Entry where
  | supplied (b1 b2 b3 : Byte)
  | restart (r : Restart)
deriving DecidableEq, Repr

/-- What the outside shows for one sampling point (60_exceptions.md R263, R274): the first three are the levels that a
`RIM` before the sampling reads; the others are seen by the sampling. `edge75` is a rising edge of RST 7.5.
`ack1 ack2 ack3` are the bytes the device supplies if `INT`/`INTR` is accepted. `reset` is the RESET input (log 18). -/
structure Slot where
  sid    : Bool
  i55    : Bool
  i65    : Bool
  trap   : Bool
  edge75 : Bool
  req65  : Bool
  req55  : Bool
  intr   : Bool
  ack1   : Byte
  ack2   : Byte
  ack3   : Byte
  reset  : Bool
deriving DecidableEq, Repr

/-- The slot of an interrupt source that does not request (60_exceptions.md R263). -/
def Slot.quiet : Slot :=
  { sid := false, i55 := false, i65 := false, trap := false, edge75 := false, req65 := false, req55 := false,
    intr := false, ack1 := 0x00#8, ack2 := 0x00#8, ack3 := 0x00#8, reset := false }

/-- What the machine shows the outside, in program order (20_memory.md R65, 45_io.md R220, 60_exceptions.md R273). -/
inductive Event where
  /-- `In(port, byte)`. -/
  | input (port v : Byte)
  /-- `Out(port, byte)`. -/
  | output (port v : Byte)
  /-- `SOD` changed to this level. -/
  | serial (level : Bool)
  /-- A read of a memory address that is a device (20_memory.md R58; log 9). -/
  | deviceRead (addr : Word) (v : Byte)
  /-- A write to a memory address that is a device (20_memory.md R58; log 9). -/
  | deviceWrite (addr : Word) (v : Byte)
deriving DecidableEq, Repr

/-- The outside world as the model holds it: how many `IN` the run has made, what the pins will show, what was shown,
and the counter of the free values (log 10, 11, 22, 23). -/
@[ext]
structure Env where
  inputs   : Nat
  slots    : List Slot
  history  : List Event
  draws    : Nat
deriving DecidableEq, Repr

/-- The whole machine. `cfg` holds the parameters, which no step changes (log 3). -/
@[ext]
structure State where
  cfg       : Config.Params
  regs      : Regs
  flags     : Flags
  sp        : Word
  pc        : Word
  inte      : Bool
  inteLate  : Bool
  eiPending : Nat
  halted    : Bool
  masks     : Masks
  accepted  : Option Entry
  mem       : Memory
  env       : Env
  clk       : Nat
deriving DecidableEq, Repr

/-- Why the model stops. -/
inductive Fault where
  /-- `IllegalOpcode` (46_interrupt_and_other.md R236): raised by an unused opcode under the policy `Fault`, and on the
  I8085 under either policy. Safe: the hardware goes on in a way the spec does not give. -/
  | illegalOpcode (opcode : Byte)
deriving DecidableEq, Repr

/-- Why the model gives an instruction no meaning. -/
inductive Refusal where
  /-- The instruction has no meaning in this model. No arm answers it now. Safe. -/
  | notModelled (mnemonic : String)
deriving DecidableEq, Repr

/-- The machine right after reset (70_reset_and_hazards.md R300, R301). The registers, the flags and `SP`, which the spec
leaves open, are 0: DESIGN CHOICE, log 1. So is the clock count, for which R312 states no first value: DESIGN CHOICE,
log 20. The values of the model's own fields are in log 10, 11, 14, 16, 22 and 23. -/
def State.reset : State :=
  let r := Config.ResetState.standard
  { cfg := Config.Params.standard Config.resetVariant
    regs := { a := 0x00#8, b := 0x00#8, c := 0x00#8, d := 0x00#8, e := 0x00#8, h := 0x00#8, l := 0x00#8 }
    flags := { s := false, z := false, ac := false, p := false, cy := false }
    sp := 0x0000#16
    pc := r.pc
    inte := r.inte
    inteLate := false
    eiPending := r.eiPending
    halted := r.halted
    masks := { m55 := r.m55, m65 := r.m65, m75 := r.m75, r75 := r.r75, sod := r.sod }
    accepted := none
    mem := []
    env := { inputs := 0, slots := [], history := [], draws := 0 }
    clk := 0 }

end Sys2Proof.Machine
end

