-- ==== Sys2Proof/Machine/Ops.lean ====
section
/-! DEFINITION. The named operations over the state: field updates, memory cycles, I/O cycles, the stack, taking an
interrupt and returning from one, the RESET input. -/

namespace Sys2Proof.Machine

/-! ### Field updates -/

def State.setRegs (g : Regs) (s : State) : State := { s with regs := g }
def State.setFlags (f : Flags) (s : State) : State := { s with flags := f }
def State.setSp (w : Word) (s : State) : State := { s with sp := w }
def State.setPc (w : Word) (s : State) : State := { s with pc := w }
def State.setMem (m : Memory) (s : State) : State := { s with mem := m }
def State.setEnv (e : Env) (s : State) : State := { s with env := e }
def State.setMasks (m : Masks) (s : State) : State := { s with masks := m }
def State.setHalted (x : Bool) (s : State) : State := { s with halted := x }
def State.setAccepted (e : Option Entry) (s : State) : State := { s with accepted := e }
def State.setClk (n : Nat) (s : State) : State := { s with clk := n }

/-- The interrupt enable, the enable that `DI`'s own end still sees, and the delay count (10_state.md R31, R36). -/
def State.setEnable (on late : Bool) (pending : Nat) (s : State) : State :=
  { s with inte := on, inteLate := late, eiPending := pending }

/-- `A <- v`. -/
def State.setA (v : Byte) (s : State) : State := s.setRegs { s.regs with a := v }

/-- `CY <- c`, the other flags kept. -/
def State.setCy (c : Bool) (s : State) : State := s.setFlags { s.flags with cy := c }

/-- `BC`, `B` the high byte (10_state.md R22). -/
def State.bc (s : State) : Word := le16 s.regs.c s.regs.b
/-- `DE` (10_state.md R22). -/
def State.de (s : State) : Word := le16 s.regs.e s.regs.d
/-- `HL` (10_state.md R22). -/
def State.hl (s : State) : Word := le16 s.regs.l s.regs.h

def State.setBc (w : Word) (s : State) : State := s.setRegs { s.regs with b := hiByte w, c := loByte w }
def State.setDe (w : Word) (s : State) : State := s.setRegs { s.regs with d := hiByte w, e := loByte w }
def State.setHl (w : Word) (s : State) : State := s.setRegs { s.regs with h := hiByte w, l := loByte w }

/-! ### The environment -/

/-- One event more in the history (20_memory.md R65). -/
def State.emit (e : Event) (s : State) : State := s.setEnv { s.env with history := s.env.history ++ [e] }

/-- The free-value counter goes on by one (log 22). -/
def State.draw (s : State) : State := s.setEnv { s.env with draws := s.env.draws + 1 }

/-- What the outside shows at the coming sampling point; an ended script never requests (60_exceptions.md R263). -/
def State.nextSlot (s : State) : Slot :=
  match s.env.slots with
  | [] => Slot.quiet
  | x :: _ => x

/-- The script without the slot of this sampling point. -/
def State.dropSlot (s : State) : State := s.setEnv { s.env with slots := s.env.slots.tail }

/-! ### Memory cycles -/

/-- A region covers an address. -/
def regionCovers (a : Word) (r : Config.Region) : Bool :=
  decide (r.base.toNat ≤ a.toNat) && decide (a.toNat < r.base.toNat + r.size)

/-- What stands at an address: the first region that covers it, RAM where none does (20_memory.md R58). -/
def State.kindAt (s : State) (a : Word) : Config.MemKind :=
  match s.cfg.memMap.find? (regionCovers a) with
  | some r => r.kind
  | none => .ram

/-- The byte that the memory itself holds at an address (20_memory.md R50). -/
def State.byteAt (s : State) (a : Word) : Byte := s.mem.read a.toNat

/-- A byte placed in the memory itself, whatever stands at the address: how a program is loaded. -/
def State.poke (a : Word) (v : Byte) (s : State) : State := s.setMem (s.mem.write a.toNat v)

/-- `MemRead(a, 1)` (20_memory.md R50, R58): an unpopulated address and a device answer a free value, a device's answer
is an event. -/
def State.memRead (s : State) (a : Word) : Byte × State :=
  match s.kindAt a with
  | .ram | .rom => (s.byteAt a, s)
  | .unpopulated => (Config.freeBusByte s.env.draws a, s.draw)
  | .device =>
    let v := Config.freeBusByte s.env.draws a
    (v, s.draw.emit (.deviceRead a v))

/-- `MemWrite(a, 1, v)` (20_memory.md R50, R58): ROM ignores it, nothing stands at an unpopulated address, a device
is shown it. -/
def State.memWrite (a : Word) (v : Byte) (s : State) : State :=
  match s.kindAt a with
  | .ram => s.poke a v
  | .rom | .unpopulated => s
  | .device => s.emit (.deviceWrite a v)

/-! ### I/O cycles -/

/-- `IO_IN` (45_io.md R220): the byte for a port and a position in the run, the first one listed for both, else a free
value. -/
def portAnswer (cfg : Config.Params) (position : Nat) (port : Byte) : Byte :=
  match cfg.ioIn.find? (fun x => x.position = position ∧ x.port = port) with
  | some x => x.value
  | none => Config.freePortByte position port

/-- `IoRead(port)` (45_io.md R220, R221): the answer to this `IN` of the run; the event is recorded. -/
def State.ioRead (s : State) (port : Byte) : Byte × State :=
  let v := portAnswer s.cfg s.env.inputs port
  (v, (s.setEnv { s.env with inputs := s.env.inputs + 1 }).emit (.input port v))

/-- `IoWrite(port, v)` (45_io.md R220, R222). -/
def State.ioWrite (port v : Byte) (s : State) : State := s.emit (.output port v)

/-! ### The stack (10_state.md R24) -/

/-- A 16-bit push: the high byte at `SP-1` first, then the low byte at `SP-2` (20_memory.md R54, R55). -/
def State.pushBytes (hi lo : Byte) (s : State) : State :=
  let s1 := s.memWrite (s.sp - 1#16) hi
  let s2 := s1.memWrite (s.sp - 2#16) lo
  s2.setSp (s.sp - 2#16)

/-- A 16-bit pop: the low byte from `SP` first, then the high byte from `SP+1` (20_memory.md R54, R55). -/
def State.popWord (s : State) : Word × State :=
  let lo := s.memRead s.sp
  let hi := lo.2.memRead (s.sp + 1#16)
  (le16 lo.1 hi.1, hi.2.setSp (s.sp + 2#16))

/-- `PC` pushed (43_control_transfer.md R192, R196). -/
def State.pushPc (s : State) : State := s.pushBytes (hiByte s.pc) (loByte s.pc)

/-! ### Taking an interrupt, and returning from one -/

/-- The entry address of an internal restart (60_exceptions.md R275). -/
def restartVector : Restart → Word
  | .trap => 0x0024#16
  | .rst55 => 0x002C#16
  | .rst65 => 0x0034#16
  | .rst75 => 0x003C#16

/-- `INTE <- 0; EI_PENDING <- 0; HALTED <- 0`, and the acceptance is over (60_exceptions.md R264, R265, R275). -/
def State.enterInterrupt (s : State) : State :=
  ((s.setEnable false false 0).setHalted false).setAccepted none

/-- The internal restart of the I8085's own inputs (60_exceptions.md R275); accepting RST 7.5 clears its latch. -/
def State.takeRestart (r : Restart) (s : State) : State :=
  let s1 := s.enterInterrupt
  let s2 := match r with
    | .rst75 => s1.setMasks { s1.masks with r75 := false }
    | .trap | .rst65 | .rst55 => s1
  s2.pushPc.setPc (restartVector r)

/-- The return: `PC` popped and nothing else restored (60_exceptions.md R268, 43_control_transfer.md R194). -/
def State.returnFrom (s : State) : State :=
  let r := s.popWord
  r.2.setPc r.1

/-! ### The mask register and the RESET input -/

/-- The I8085's latches written; a change of `SOD` is an output event (60_exceptions.md R273). -/
def State.writeMasks (m : Masks) (s : State) : State :=
  let s1 := s.setMasks m
  if m.sod = s.masks.sod then s1 else s1.emit (.serial m.sod)

/-- The RESET input (70_reset_and_hazards.md R300, R301): `RESET_STATE` assigned, everything else left as it was. -/
def State.resetInput (s : State) : State :=
  let r := s.cfg.resetState
  let s1 := (((s.setPc r.pc).setEnable r.inte false r.eiPending).setHalted r.halted).setAccepted none
  match s.cfg.variant with
  | .i8080 => s1
  | .i8085 => s1.writeMasks { m55 := r.m55, m65 := r.m65, m75 := r.m75, r75 := r.r75, sod := r.sod }

/-! ### Launch -/

/-- The bytes of a program placed in memory. -/
def State.load (prog : List (Word × Byte)) (s : State) : State :=
  match prog with
  | [] => s
  | cell :: rest => State.load rest (s.poke cell.1 cell.2)

/-- The launch state (70_reset_and_hazards.md R303): the program in memory, `PC` at its entry, interrupts off, not
halted, registers, flags and `SP` as they were. DESIGN CHOICE, log 21: the I8085's masks, `R75` and `SOD`, which R303 does
not list, stay as `s` has them too, and so do the parameters, the environment and the clock count. -/
def State.launch (prog : List (Word × Byte)) (entry : Word) (s : State) : State :=
  ((((s.load prog).setPc entry).setEnable false false 0).setHalted false).setAccepted none

end Sys2Proof.Machine
end

