-- ==== Sys2Proof/Syntax.lean ====
section
/-! DEFINITION. The instructions: one constructor for each row of spec/opcode_table.json, in the table's order. -/

namespace Sys2Proof

/-- An 8-bit operand (10_state.md R21, Table 1). `m` is not a register: it is the memory byte at `HL`. -/
inductive Reg where
  | b | c | d | e | h | l | m | a
deriving DecidableEq, Repr

/-- A 16-bit operand whose code 3 is `SP` (10_state.md R22, Table 2). -/
inductive RegPair where
  | bc | de | hl | sp
deriving DecidableEq, Repr

/-- The operand of `PUSH` and `POP`, whose code 3 is `PSW` (10_state.md R22). -/
inductive StackPair where
  | bc | de | hl | psw
deriving DecidableEq, Repr

/-- The operand of `LDAX` and `STAX` (10_state.md R22). -/
inductive IndexPair where
  | bc | de
deriving DecidableEq, Repr

/-- A condition (10_state.md R30, Table 3). -/
inductive Cond where
  | nz | z | nc | c | po | pe | p | m
deriving DecidableEq, Repr

/-- The instructions. A 16-bit immediate or address stands as the value `B3 ++ B2` (30_encoding.md R86). -/
inductive Instr where
  -- data movement (40_data_transfer.md)
  | mov (dst src : Reg)
  | mvi (dst : Reg) (v : Byte)
  | lxi (p : RegPair) (v : Word)
  | lda (addr : Word)
  | sta (addr : Word)
  | lhld (addr : Word)
  | shld (addr : Word)
  | ldax (p : IndexPair)
  | stax (p : IndexPair)
  | xchg
  -- arithmetic (41_arithmetic.md)
  | add (r : Reg)
  | adi (v : Byte)
  | adc (r : Reg)
  | aci (v : Byte)
  | sub (r : Reg)
  | sui (v : Byte)
  | sbb (r : Reg)
  | sbi (v : Byte)
  | inr (r : Reg)
  | dcr (r : Reg)
  | inx (p : RegPair)
  | dcx (p : RegPair)
  | dad (p : RegPair)
  | daa
  -- logical (42_logical.md)
  | ana (r : Reg)
  | ani (v : Byte)
  | xra (r : Reg)
  | xri (v : Byte)
  | ora (r : Reg)
  | ori (v : Byte)
  | cmp (r : Reg)
  | cpi (v : Byte)
  | rlc
  | rrc
  | ral
  | rar
  | cma
  | cmc
  | stc
  -- control transfer (43_control_transfer.md)
  | jmp (addr : Word)
  | jnz (addr : Word)
  | jz (addr : Word)
  | jnc (addr : Word)
  | jc (addr : Word)
  | jpo (addr : Word)
  | jpe (addr : Word)
  | jp (addr : Word)
  | jm (addr : Word)
  | call (addr : Word)
  | cnz (addr : Word)
  | cz (addr : Word)
  | cnc (addr : Word)
  | cc (addr : Word)
  | cpo (addr : Word)
  | cpe (addr : Word)
  | cp (addr : Word)
  | cm (addr : Word)
  | ret
  | rnz
  | rz
  | rnc
  | rc
  | rpo
  | rpe
  | rp
  | rm
  | rst (n : BitVec 3)
  | pchl
  -- stack (44_stack.md)
  | push (p : StackPair)
  | pop (p : StackPair)
  | xthl
  | sphl
  -- input and output (45_io.md)
  | inPort (port : Byte)
  | outPort (port : Byte)
  -- interrupt control and other (46_interrupt_and_other.md)
  | ei
  | di
  | hlt
  | nop
  -- the I8085's extra instructions (47_i8085_extra.md)
  | sim
  | rim
  -- the unused opcodes (46_interrupt_and_other.md R236); four of them are three bytes long as aliases
  | unused08
  | unused10
  | unused18
  | unused28
  | unused38
  | unusedCB (addr : Word)
  | unusedD9
  | unusedDD (addr : Word)
  | unusedED (addr : Word)
  | unusedFD (addr : Word)
  | unused20
  | unused30
deriving DecidableEq, Repr

end Sys2Proof
end

