-- ==== Sys2Proof/Machine/Flags.lean ====
section
/-! DEFINITION. Every flag computation of the spec: 41_arithmetic.md R130 to R132 and R148, 42_logical.md R161,
10_state.md R27, R29, R30. -/

namespace Sys2Proof.Machine

/-- `parity_even` (00_scope.md R11): an even number of 1 bits. -/
def parityEven (v : Byte) : Bool := ((List.range 8).countP (fun i => v.getLsbD i)) % 2 == 0

/-- A bit as the number 0 or 1. -/
def bit (c : Bool) : Nat := if c then 1 else 0

/-- `AC_ADD` (41_arithmetic.md R131): by default the carry out of bit 3. -/
def acAdd (cfg : Config.Params) (a b : Byte) (c : Bool) : Bool :=
  match cfg.acAdd with
  | .standard => decide (16 ≤ a.toNat % 16 + b.toNat % 16 + bit c)
  | .free => Config.freeAcAdd a b c

/-- `AC_SUB` (41_arithmetic.md R131): by default 1 when the low nibble needs no borrow. -/
def acSub (cfg : Config.Params) (a b : Byte) (c : Bool) : Bool :=
  match cfg.acSub with
  | .standard => decide (b.toNat % 16 + bit c ≤ a.toNat % 16)
  | .free => Config.freeAcSub a b c

/-- `AC_ANA` (42_logical.md R161): by default bit 3 of the OR of the operands on the I8080, 1 on the I8085. -/
def acAna (cfg : Config.Params) (a v : Byte) : Bool :=
  match cfg.acAna, cfg.variant with
  | .standard, .i8080 => (a ||| v).getLsbD 3
  | .standard, .i8085 => true
  | .free, _ => Config.freeAcAna a v

/-- The result, the carry and the auxiliary carry of an 8-bit operation (41_arithmetic.md R130). -/
structure AluOut where
  res : Byte
  cy  : Bool
  ac  : Bool
deriving DecidableEq, Repr

/-- `Add8(a, b, c)` (41_arithmetic.md R130). -/
def add8 (cfg : Config.Params) (a b : Byte) (c : Bool) : AluOut :=
  let t := a.toNat + b.toNat + bit c
  { res := BitVec.ofNat 8 t, cy := decide (256 ≤ t), ac := acAdd cfg a b c }

/-- `Sub8(a, b, c)` (41_arithmetic.md R130): `cy` is the borrow (R132). -/
def sub8 (cfg : Config.Params) (a b : Byte) (c : Bool) : AluOut :=
  { res := BitVec.ofInt 8 ((a.toNat : Int) - (b.toNat : Int) - (bit c : Int)),
    cy := decide (a.toNat < b.toNat + bit c), ac := acSub cfg a b c }

/-- `SetSZP(res)` (41_arithmetic.md R130, 10_state.md R27). -/
def Flags.setSzp (res : Byte) (f : Flags) : Flags :=
  { f with s := res.getLsbD 7, z := decide (res = 0#8), p := parityEven res }

/-- All five flags from an 8-bit result. -/
def AluOut.flags (o : AluOut) : Flags :=
  { s := o.res.getLsbD 7, z := decide (o.res = 0#8), ac := o.ac, p := parityEven o.res, cy := o.cy }

/-- The flags of `INR` and `DCR`: all but `CY` (10_state.md R28). -/
def AluOut.flagsKeepCy (o : AluOut) (f : Flags) : Flags := { o.flags with cy := f.cy }

/-! ### Decimal adjust (41_arithmetic.md R147, R148) -/

/-- The default `DAA_FN`. -/
def daaStandard (cfg : Config.Params) (a : Byte) (ac cy : Bool) : AluOut :=
  let lo := a.toNat % 16
  let hi := a.toNat / 16
  let low := ac || decide (9 < lo)
  let high := cy || decide (9 < hi) || (decide (9 ≤ hi) && decide (9 < lo))
  let corr := BitVec.ofNat 8 ((if low then 0x06 else 0) + (if high then 0x60 else 0))
  { res := BitVec.ofNat 8 (a.toNat + corr.toNat), cy := high, ac := acAdd cfg a corr false }

/-- The decimal sum of two packed-BCD bytes and a carry, recovered from their binary sum `a` and its carries out of
bit 3 and bit 7; none if no such addition gives them (R148's guarantee). -/
def bcdSum (a : Byte) (ac cy : Bool) : Option Nat :=
  let low := a.toNat % 16 + 16 * bit ac
  let high := a.toNat / 16 + 16 * bit cy
  if low ≤ 19 ∧ bit ac ≤ high ∧ high ≤ 18 + bit ac then some (10 * (high - bit ac) + low) else none

/-- A number below 100 as a packed-BCD byte. -/
def packBcd (n : Nat) : Byte := BitVec.ofNat 8 (16 * (n / 10 % 10) + n % 10)

/-- `DAA_FN` when nothing is assumed of it but what R148 says the source guarantees, which speaks of the carry out of
bit 3 and so is kept where `AC_ADD` is that carry (log 6). -/
def daaFree (cfg : Config.Params) (a : Byte) (ac cy : Bool) : AluOut :=
  let f := Config.freeDaa a ac cy
  match cfg.acAdd, bcdSum a ac cy with
  | .standard, some n => { res := packBcd (n % 100), cy := decide (100 ≤ n), ac := f.2.2 }
  | _, _ => { res := f.1, cy := f.2.1, ac := f.2.2 }

/-- `DAA_FN` (R148). -/
def daaFn (cfg : Config.Params) (a : Byte) (ac cy : Bool) : AluOut :=
  match cfg.daa with
  | .standard => daaStandard cfg a ac cy
  | .free => daaFree cfg a ac cy

/-! ### The flag byte (10_state.md R29) -/

/-- `F = S ++ Z ++ x5 ++ AC ++ x3 ++ P ++ x1 ++ CY`. -/
def flagByte (f : Flags) (x5 x3 x1 : Bool) : Byte :=
  BitVec.ofBool f.s ++ BitVec.ofBool f.z ++ BitVec.ofBool x5 ++ BitVec.ofBool f.ac ++
    BitVec.ofBool x3 ++ BitVec.ofBool f.p ++ BitVec.ofBool x1 ++ BitVec.ofBool f.cy

/-- The flags of a byte that `POP PSW` read; bits 5, 3, 1 are ignored. -/
def flagsOfByte (b : Byte) : Flags :=
  { s := b.getLsbD 7, z := b.getLsbD 6, ac := b.getLsbD 4, p := b.getLsbD 2, cy := b.getLsbD 0 }

/-- The flag byte as `PUSH PSW` stores it, with `F_X_BITS` given or drawn. -/
def State.flagByteOut (s : State) : Byte × State :=
  match s.cfg.fxBits with
  | .fixed x5 x3 x1 => (flagByte s.flags x5 x3 x1, s)
  | .drawn =>
    let x := Config.freeFlagXBits s.env.draws
    (flagByte s.flags x.1 x.2.1 x.2.2, s.draw)

/-! ### Conditions (10_state.md R30) -/

/-- `cond(ccc)`. -/
def Flags.holds (f : Flags) : Cond → Bool
  | .nz => !f.z
  | .z => f.z
  | .nc => !f.cy
  | .c => f.cy
  | .po => !f.p
  | .pe => f.p
  | .p => !f.s
  | .m => f.s

end Sys2Proof.Machine
end

