-- ==== Sys2Proof/Machine/Operands.lean ====
section
/-! DEFINITION. The operand accessors of 00_scope.md R12. -/

namespace Sys2Proof.Machine

/-- `Reg8(c)`: a register, or the memory byte at `HL`. -/
def readReg (r : Reg) (s : State) : Byte × State :=
  match r with
  | .b => (s.regs.b, s)
  | .c => (s.regs.c, s)
  | .d => (s.regs.d, s)
  | .e => (s.regs.e, s)
  | .h => (s.regs.h, s)
  | .l => (s.regs.l, s)
  | .m => s.memRead s.hl
  | .a => (s.regs.a, s)

/-- `SetReg8(c, v)`. -/
def writeReg (r : Reg) (v : Byte) (s : State) : State :=
  match r with
  | .b => s.setRegs { s.regs with b := v }
  | .c => s.setRegs { s.regs with c := v }
  | .d => s.setRegs { s.regs with d := v }
  | .e => s.setRegs { s.regs with e := v }
  | .h => s.setRegs { s.regs with h := v }
  | .l => s.setRegs { s.regs with l := v }
  | .m => s.memWrite s.hl v
  | .a => s.setRegs { s.regs with a := v }

/-- `RP(p)`. -/
def readPair (p : RegPair) (s : State) : Word :=
  match p with
  | .bc => s.bc
  | .de => s.de
  | .hl => s.hl
  | .sp => s.sp

/-- `WRP(p, v)`. -/
def writePair (p : RegPair) (w : Word) (s : State) : State :=
  match p with
  | .bc => s.setBc w
  | .de => s.setDe w
  | .hl => s.setHl w
  | .sp => s.setSp w

/-- The address of `LDAX` and `STAX` (40_data_transfer.md R117, R118). -/
def indexAddr (p : IndexPair) (s : State) : Word :=
  match p with
  | .bc => s.bc
  | .de => s.de

end Sys2Proof.Machine
end

