-- ==== Sys2Proof/Machine/Arithmetic.lean ====
section
/-! DEFINITION. The arithmetic instructions (41_arithmetic.md). -/

namespace Sys2Proof.Machine

open Host (Outcome)

/-- `A <- res; SetSZP(res); CY <- cy; AC <- ac`, the end of every 8-bit accumulator operation (R133 to R140). -/
def State.accumulate (o : AluOut) (s : State) : State := (s.setA o.res).setFlags o.flags

/-- `ADD r` (R133). -/
def execAdd (r : Reg) (s : State) : Outcome State Fault Refusal :=
  let v := readReg r s
  .next (v.2.accumulate (add8 s.cfg s.regs.a v.1 false))

/-- `ADI B2` (R134). -/
def execAdi (v : Byte) (s : State) : Outcome State Fault Refusal :=
  .next (s.accumulate (add8 s.cfg s.regs.a v false))

/-- `ADC r` (R135). -/
def execAdc (r : Reg) (s : State) : Outcome State Fault Refusal :=
  let v := readReg r s
  .next (v.2.accumulate (add8 s.cfg s.regs.a v.1 s.flags.cy))

/-- `ACI B2` (R136). -/
def execAci (v : Byte) (s : State) : Outcome State Fault Refusal :=
  .next (s.accumulate (add8 s.cfg s.regs.a v s.flags.cy))

/-- `SUB r` (R137). -/
def execSub (r : Reg) (s : State) : Outcome State Fault Refusal :=
  let v := readReg r s
  .next (v.2.accumulate (sub8 s.cfg s.regs.a v.1 false))

/-- `SUI B2` (R138). -/
def execSui (v : Byte) (s : State) : Outcome State Fault Refusal :=
  .next (s.accumulate (sub8 s.cfg s.regs.a v false))

/-- `SBB r` (R139). -/
def execSbb (r : Reg) (s : State) : Outcome State Fault Refusal :=
  let v := readReg r s
  .next (v.2.accumulate (sub8 s.cfg s.regs.a v.1 s.flags.cy))

/-- `SBI B2` (R140). -/
def execSbi (v : Byte) (s : State) : Outcome State Fault Refusal :=
  .next (s.accumulate (sub8 s.cfg s.regs.a v s.flags.cy))

/-- `INR r` (R141): `CY` is kept. -/
def execInr (r : Reg) (s : State) : Outcome State Fault Refusal :=
  let v := readReg r s
  let o := add8 s.cfg v.1 0x01#8 false
  .next ((writeReg r o.res v.2).setFlags (o.flagsKeepCy s.flags))

/-- `DCR r` (R142): `CY` is kept. -/
def execDcr (r : Reg) (s : State) : Outcome State Fault Refusal :=
  let v := readReg r s
  let o := sub8 s.cfg v.1 0x01#8 false
  .next ((writeReg r o.res v.2).setFlags (o.flagsKeepCy s.flags))

/-- `INX rp` (R143). -/
def execInx (p : RegPair) (s : State) : Outcome State Fault Refusal :=
  .next (writePair p (readPair p s + 1#16) s)

/-- `DCX rp` (R144). -/
def execDcx (p : RegPair) (s : State) : Outcome State Fault Refusal :=
  .next (writePair p (readPair p s - 1#16) s)

/-- `DAD rp` (R145): `CY` is the carry out of bit 15. -/
def execDad (p : RegPair) (s : State) : Outcome State Fault Refusal :=
  let t := s.hl.toNat + (readPair p s).toNat
  .next ((s.setHl (BitVec.ofNat 16 t)).setCy (decide (65536 ≤ t)))

/-- `DAA` (R147, R148). -/
def execDaa (s : State) : Outcome State Fault Refusal :=
  .next (s.accumulate (daaFn s.cfg s.regs.a s.flags.ac s.flags.cy))

end Sys2Proof.Machine
end

