-- ==== Sys2Proof/Machine/Control.lean ====
section
/-! DEFINITION. The control-transfer instructions (43_control_transfer.md). `pc` is the address of the next sequential
instruction when a meaning runs (00_scope.md R13), and so is the link value. -/

namespace Sys2Proof.Machine

open Host (Outcome)

/-- `JMP` (R190) and the taken `J…` (R191). -/
def State.jumpTo (addr : Word) (s : State) : State := s.setPc addr

/-- `CALL` (R192) and the taken `C…` (R193): the link is pushed, high byte first. -/
def State.callTo (addr : Word) (s : State) : State := s.pushPc.setPc addr

/-- An effect that a condition decides (R191, R193, R195). -/
def State.whenHolds (cond : Cond) (effect : State → State) (s : State) : State :=
  if s.flags.holds cond then effect s else s

/-- `JMP B3B2` (R190). -/
def execJmp (addr : Word) (s : State) : Outcome State Fault Refusal := .next (s.jumpTo addr)

/-- `JNZ` (R191). -/
def execJnz (addr : Word) (s : State) : Outcome State Fault Refusal :=
  .next (s.whenHolds .nz (State.jumpTo addr))

/-- `JZ` (R191). -/
def execJz (addr : Word) (s : State) : Outcome State Fault Refusal :=
  .next (s.whenHolds .z (State.jumpTo addr))

/-- `JNC` (R191). -/
def execJnc (addr : Word) (s : State) : Outcome State Fault Refusal :=
  .next (s.whenHolds .nc (State.jumpTo addr))

/-- `JC` (R191). -/
def execJc (addr : Word) (s : State) : Outcome State Fault Refusal :=
  .next (s.whenHolds .c (State.jumpTo addr))

/-- `JPO` (R191). -/
def execJpo (addr : Word) (s : State) : Outcome State Fault Refusal :=
  .next (s.whenHolds .po (State.jumpTo addr))

/-- `JPE` (R191). -/
def execJpe (addr : Word) (s : State) : Outcome State Fault Refusal :=
  .next (s.whenHolds .pe (State.jumpTo addr))

/-- `JP` (R191). -/
def execJp (addr : Word) (s : State) : Outcome State Fault Refusal :=
  .next (s.whenHolds .p (State.jumpTo addr))

/-- `JM` (R191). -/
def execJm (addr : Word) (s : State) : Outcome State Fault Refusal :=
  .next (s.whenHolds .m (State.jumpTo addr))

/-- `CALL B3B2` (R192). -/
def execCall (addr : Word) (s : State) : Outcome State Fault Refusal := .next (s.callTo addr)

/-- `CNZ` (R193). -/
def execCnz (addr : Word) (s : State) : Outcome State Fault Refusal :=
  .next (s.whenHolds .nz (State.callTo addr))

/-- `CZ` (R193). -/
def execCz (addr : Word) (s : State) : Outcome State Fault Refusal :=
  .next (s.whenHolds .z (State.callTo addr))

/-- `CNC` (R193). -/
def execCnc (addr : Word) (s : State) : Outcome State Fault Refusal :=
  .next (s.whenHolds .nc (State.callTo addr))

/-- `CC` (R193). -/
def execCc (addr : Word) (s : State) : Outcome State Fault Refusal :=
  .next (s.whenHolds .c (State.callTo addr))

/-- `CPO` (R193). -/
def execCpo (addr : Word) (s : State) : Outcome State Fault Refusal :=
  .next (s.whenHolds .po (State.callTo addr))

/-- `CPE` (R193). -/
def execCpe (addr : Word) (s : State) : Outcome State Fault Refusal :=
  .next (s.whenHolds .pe (State.callTo addr))

/-- `CP` (R193). -/
def execCp (addr : Word) (s : State) : Outcome State Fault Refusal :=
  .next (s.whenHolds .p (State.callTo addr))

/-- `CM` (R193). -/
def execCm (addr : Word) (s : State) : Outcome State Fault Refusal :=
  .next (s.whenHolds .m (State.callTo addr))

/-- `RET` (R194). -/
def execRet (s : State) : Outcome State Fault Refusal := .next s.returnFrom

/-- `RNZ` (R195). -/
def execRnz (s : State) : Outcome State Fault Refusal :=
  .next (s.whenHolds .nz State.returnFrom)

/-- `RZ` (R195). -/
def execRz (s : State) : Outcome State Fault Refusal :=
  .next (s.whenHolds .z State.returnFrom)

/-- `RNC` (R195). -/
def execRnc (s : State) : Outcome State Fault Refusal :=
  .next (s.whenHolds .nc State.returnFrom)

/-- `RC` (R195). -/
def execRc (s : State) : Outcome State Fault Refusal :=
  .next (s.whenHolds .c State.returnFrom)

/-- `RPO` (R195). -/
def execRpo (s : State) : Outcome State Fault Refusal :=
  .next (s.whenHolds .po State.returnFrom)

/-- `RPE` (R195). -/
def execRpe (s : State) : Outcome State Fault Refusal :=
  .next (s.whenHolds .pe State.returnFrom)

/-- `RP` (R195). -/
def execRp (s : State) : Outcome State Fault Refusal :=
  .next (s.whenHolds .p State.returnFrom)

/-- `RM` (R195). -/
def execRm (s : State) : Outcome State Fault Refusal :=
  .next (s.whenHolds .m State.returnFrom)

/-- The restart address `0000 0000 00NN N000b` (30_encoding.md R86). -/
def rstTarget (n : BitVec 3) : Word := BitVec.setWidth 16 n * 8#16

/-- `RST n` (R196). -/
def execRst (n : BitVec 3) (s : State) : Outcome State Fault Refusal :=
  .next (s.pushPc.setPc (rstTarget n))

/-- `PCHL` (R197). -/
def execPchl (s : State) : Outcome State Fault Refusal := .next (s.setPc s.hl)

end Sys2Proof.Machine
end

