-- ==== Sys2Proof/Machine/DataTransfer.lean ====
section
/-! DEFINITION. The data-movement instructions (40_data_transfer.md). `pc` already stands past the instruction in every
meaning (00_scope.md R13). -/

namespace Sys2Proof.Machine

open Host (Outcome)

/-- `MOV r1,r2` (R110). -/
def execMov (dst src : Reg) (s : State) : Outcome State Fault Refusal :=
  let v := readReg src s
  .next (writeReg dst v.1 v.2)

/-- `MVI r,B2` (R111). -/
def execMvi (dst : Reg) (v : Byte) (s : State) : Outcome State Fault Refusal :=
  .next (writeReg dst v s)

/-- `LXI rp,B3B2` (R112). -/
def execLxi (p : RegPair) (w : Word) (s : State) : Outcome State Fault Refusal :=
  .next (writePair p w s)

/-- `LDA B3B2` (R113). -/
def execLda (addr : Word) (s : State) : Outcome State Fault Refusal :=
  let v := s.memRead addr
  .next (v.2.setA v.1)

/-- `STA B3B2` (R114). -/
def execSta (addr : Word) (s : State) : Outcome State Fault Refusal :=
  .next (s.memWrite addr s.regs.a)

/-- `LHLD B3B2` (R115): `L` from the address, then `H` from the next one. -/
def execLhld (addr : Word) (s : State) : Outcome State Fault Refusal :=
  let lo := s.memRead addr
  let hi := lo.2.memRead (addr + 1#16)
  .next (hi.2.setHl (le16 lo.1 hi.1))

/-- `SHLD B3B2` (R116): `L` to the address, then `H` to the next one. -/
def execShld (addr : Word) (s : State) : Outcome State Fault Refusal :=
  .next ((s.memWrite addr s.regs.l).memWrite (addr + 1#16) s.regs.h)

/-- `LDAX rp` (R117). -/
def execLdax (p : IndexPair) (s : State) : Outcome State Fault Refusal :=
  let v := s.memRead (indexAddr p s)
  .next (v.2.setA v.1)

/-- `STAX rp` (R118). -/
def execStax (p : IndexPair) (s : State) : Outcome State Fault Refusal :=
  .next (s.memWrite (indexAddr p s) s.regs.a)

/-- `XCHG` (R119). -/
def execXchg (s : State) : Outcome State Fault Refusal :=
  .next ((s.setHl s.de).setDe s.hl)

end Sys2Proof.Machine
end

