-- ==== Sys2Proof/Machine/Io.lean ====
section
/-! DEFINITION. The I/O instructions (45_io.md). -/

namespace Sys2Proof.Machine

open Host (Outcome)

/-- `IN n` (R221): the flags are kept. -/
def execInPort (port : Byte) (s : State) : Outcome State Fault Refusal :=
  let v := s.ioRead port
  .next (v.2.setA v.1)

/-- `OUT n` (R222). -/
def execOutPort (port : Byte) (s : State) : Outcome State Fault Refusal :=
  .next (s.ioWrite port s.regs.a)

end Sys2Proof.Machine
end

