-- ==== Sys2Proof/Machine/Logical.lean ====
section
/-! DEFINITION. The logical instructions (42_logical.md). -/

namespace Sys2Proof.Machine

open Host (Outcome)

/-- `A <- res; SetSZP(res); CY <- 0; AC <- ac`, the end of every bitwise operation (R160 to R167). -/
def State.logical (res : Byte) (ac : Bool) (s : State) : State :=
  let o : AluOut := { res := res, cy := false, ac := ac }
  (s.setA res).setFlags o.flags

/-- `ANA r` (R162): `AC` is `AC_ANA` of the operands (R161). -/
def execAna (r : Reg) (s : State) : Outcome State Fault Refusal :=
  let v := readReg r s
  .next (v.2.logical (s.regs.a &&& v.1) (acAna s.cfg s.regs.a v.1))

/-- `ANI B2` (R163): `AC <- 0` (90_conflicts.md C7). -/
def execAni (v : Byte) (s : State) : Outcome State Fault Refusal :=
  .next (s.logical (s.regs.a &&& v) false)

/-- `XRA r` (R164). -/
def execXra (r : Reg) (s : State) : Outcome State Fault Refusal :=
  let v := readReg r s
  .next (v.2.logical (s.regs.a ^^^ v.1) false)

/-- `XRI B2` (R165). -/
def execXri (v : Byte) (s : State) : Outcome State Fault Refusal :=
  .next (s.logical (s.regs.a ^^^ v) false)

/-- `ORA r` (R166). -/
def execOra (r : Reg) (s : State) : Outcome State Fault Refusal :=
  let v := readReg r s
  .next (v.2.logical (s.regs.a ||| v.1) false)

/-- `ORI B2` (R167). -/
def execOri (v : Byte) (s : State) : Outcome State Fault Refusal :=
  .next (s.logical (s.regs.a ||| v) false)

/-- `CMP r` (R168): `A` is not written. -/
def execCmp (r : Reg) (s : State) : Outcome State Fault Refusal :=
  let v := readReg r s
  .next (v.2.setFlags (sub8 s.cfg s.regs.a v.1 false).flags)

/-- `CPI B2` (R169): `A` is not written. -/
def execCpi (v : Byte) (s : State) : Outcome State Fault Refusal :=
  .next (s.setFlags (sub8 s.cfg s.regs.a v false).flags)

/-- `RLC` (R170). -/
def execRlc (s : State) : Outcome State Fault Refusal :=
  let a := s.regs.a
  .next ((s.setA (a.extractLsb' 0 7 ++ a.extractLsb' 7 1)).setCy (a.getLsbD 7))

/-- `RRC` (R171). -/
def execRrc (s : State) : Outcome State Fault Refusal :=
  let a := s.regs.a
  .next ((s.setA (a.extractLsb' 0 1 ++ a.extractLsb' 1 7)).setCy (a.getLsbD 0))

/-- `RAL` (R172). -/
def execRal (s : State) : Outcome State Fault Refusal :=
  let a := s.regs.a
  .next ((s.setA (a.extractLsb' 0 7 ++ BitVec.ofBool s.flags.cy)).setCy (a.getLsbD 7))

/-- `RAR` (R173). -/
def execRar (s : State) : Outcome State Fault Refusal :=
  let a := s.regs.a
  .next ((s.setA (BitVec.ofBool s.flags.cy ++ a.extractLsb' 1 7)).setCy (a.getLsbD 0))

/-- `CMA` (R174): no flag changes. -/
def execCma (s : State) : Outcome State Fault Refusal :=
  .next (s.setA (~~~ s.regs.a))

/-- `CMC` (R175). -/
def execCmc (s : State) : Outcome State Fault Refusal :=
  .next (s.setCy (!s.flags.cy))

/-- `STC` (R176). -/
def execStc (s : State) : Outcome State Fault Refusal :=
  .next (s.setCy true)

end Sys2Proof.Machine
end

