-- ==== Sys2Proof/Machine/Stack.lean ====
section
/-! DEFINITION. The stack instructions (44_stack.md). -/

namespace Sys2Proof.Machine

open Host (Outcome)

/-- `PUSH rp` (R210): for `PSW` the bytes are `A` and the flag byte of 10_state.md R29. -/
def execPush (p : StackPair) (s : State) : Outcome State Fault Refusal :=
  match p with
  | .bc => .next (s.pushBytes s.regs.b s.regs.c)
  | .de => .next (s.pushBytes s.regs.d s.regs.e)
  | .hl => .next (s.pushBytes s.regs.h s.regs.l)
  | .psw =>
    let f := s.flagByteOut
    .next (f.2.pushBytes s.regs.a f.1)

/-- `POP rp` (R211): for `PSW` the low byte gives the five flags. -/
def execPop (p : StackPair) (s : State) : Outcome State Fault Refusal :=
  let r := s.popWord
  match p with
  | .bc => .next (r.2.setBc r.1)
  | .de => .next (r.2.setDe r.1)
  | .hl => .next (r.2.setHl r.1)
  | .psw => .next ((r.2.setA (hiByte r.1)).setFlags (flagsOfByte (loByte r.1)))

/-- `XTHL` (R212): both reads, then `H` to `SP+1`, then `L` to `SP`; `SP` is kept. -/
def execXthl (s : State) : Outcome State Fault Refusal :=
  let lo := s.memRead s.sp
  let hi := lo.2.memRead (s.sp + 1#16)
  let s1 := (hi.2.memWrite (s.sp + 1#16) s.regs.h).memWrite s.sp s.regs.l
  .next (s1.setHl (le16 lo.1 hi.1))

/-- `SPHL` (R213). -/
def execSphl (s : State) : Outcome State Fault Refusal := .next (s.setSp s.hl)

end Sys2Proof.Machine
end

