-- ==== Sys2Proof/Machine/Unused.lean ====
section
/-! DEFINITION. The unused opcodes (46_interrupt_and_other.md R236). -/

namespace Sys2Proof.Machine

open Host (Outcome)

/-- `ILLEGAL_POLICY`: the other instruction's effect under `Alias`, which only the I8080 is offered; else the fault. -/
def illegalOpcode (opcode : Byte) (effect : State → State) (s : State) : Outcome State Fault Refusal :=
  match s.cfg.illegal, s.cfg.variant with
  | .aliased, .i8080 => .next (effect s)
  | .aliased, .i8085 => .fault (.illegalOpcode opcode)
  | .fault, _ => .fault (.illegalOpcode opcode)

/-- `08h`: `NOP` as an alias. -/
def execUnused08 (s : State) : Outcome State Fault Refusal := illegalOpcode 0x08#8 id s
/-- `10h`: `NOP` as an alias. -/
def execUnused10 (s : State) : Outcome State Fault Refusal := illegalOpcode 0x10#8 id s
/-- `18h`: `NOP` as an alias. -/
def execUnused18 (s : State) : Outcome State Fault Refusal := illegalOpcode 0x18#8 id s
/-- `28h`: `NOP` as an alias. -/
def execUnused28 (s : State) : Outcome State Fault Refusal := illegalOpcode 0x28#8 id s
/-- `38h`: `NOP` as an alias. -/
def execUnused38 (s : State) : Outcome State Fault Refusal := illegalOpcode 0x38#8 id s
/-- `CBh`: `JMP` as an alias. -/
def execUnusedCB (addr : Word) (s : State) : Outcome State Fault Refusal := illegalOpcode 0xCB#8 (State.jumpTo addr) s
/-- `D9h`: `RET` as an alias. -/
def execUnusedD9 (s : State) : Outcome State Fault Refusal := illegalOpcode 0xD9#8 State.returnFrom s
/-- `DDh`: `CALL` as an alias. -/
def execUnusedDD (addr : Word) (s : State) : Outcome State Fault Refusal := illegalOpcode 0xDD#8 (State.callTo addr) s
/-- `EDh`: `CALL` as an alias. -/
def execUnusedED (addr : Word) (s : State) : Outcome State Fault Refusal := illegalOpcode 0xED#8 (State.callTo addr) s
/-- `FDh`: `CALL` as an alias. -/
def execUnusedFD (addr : Word) (s : State) : Outcome State Fault Refusal := illegalOpcode 0xFD#8 (State.callTo addr) s
/-- `20h` on the I8080: `NOP` as an alias. -/
def execUnused20 (s : State) : Outcome State Fault Refusal := illegalOpcode 0x20#8 id s
/-- `30h` on the I8080: `NOP` as an alias. -/
def execUnused30 (s : State) : Outcome State Fault Refusal := illegalOpcode 0x30#8 id s

end Sys2Proof.Machine
end

