-- ==== Sys2Proof/Machine/System.lean ====
section
/-! DEFINITION. `EI`, `DI`, `HLT`, `NOP` (46_interrupt_and_other.md), `SIM` and `RIM` (47_i8085_extra.md). -/

namespace Sys2Proof.Machine

open Host (Outcome)

/-- `EI` (R230): the enable at once, the acceptance after `EI_DELAY` instruction ends; a repeated `EI` starts the delay
again. -/
def execEi (s : State) : Outcome State Fault Refusal :=
  .next (s.setEnable true s.inteLate s.cfg.eiDelay.count)

/-- `DI` (R231). With `DI_OWN_END` the sampling at its own end still sees the enable before it, unless the delay of an
`EI` was still running (60_exceptions.md R266, R267; log 14). -/
def execDi (s : State) : Outcome State Fault Refusal :=
  .next (s.setEnable false (s.cfg.diOwnEnd && s.inte && decide (s.eiPending = 0)) 0)

/-- `HLT` (R232). -/
def execHlt (s : State) : Outcome State Fault Refusal := .next (s.setHalted true)

/-- `NOP` (R233). -/
def execNop (s : State) : Outcome State Fault Refusal := .next s

/-- What `SIM` makes of the latches (47_i8085_extra.md R245). -/
def simMasks (mseLevel : Bool) (a : Byte) (m : Masks) : Masks :=
  let load := a.getLsbD 3 == mseLevel
  { m55 := if load then a.getLsbD 0 else m.m55
    m65 := if load then a.getLsbD 1 else m.m65
    m75 := if load then a.getLsbD 2 else m.m75
    r75 := if a.getLsbD 4 then false else m.r75
    sod := if a.getLsbD 6 then a.getLsbD 7 else m.sod }

/-- `SIM` (R245); on the I8080 its opcode `30h` is unused (R236). -/
def execSim (s : State) : Outcome State Fault Refusal :=
  match s.cfg.variant with
  | .i8085 => .next (s.writeMasks (simMasks s.cfg.simMseLevel s.regs.a s.masks))
  | .i8080 => illegalOpcode 0x30#8 id s

/-- The levels of `SID`, RST 6.5 and RST 5.5 at a `RIM` (47_i8085_extra.md R246): the coming slot's; with the script
ended, a free level of `SID` and no request (log 12). -/
def State.pinsForRim (s : State) : (Bool × Bool × Bool) × State :=
  match s.env.slots with
  | x :: _ => ((x.sid, x.i65, x.i55), s)
  | [] => ((Config.freeSid s.env.draws, false, false), s.draw)

/-- The byte `RIM` reads: `sid ++ R75 ++ i65 ++ i55 ++ INTE ++ M75 ++ M65 ++ M55` (R246). -/
def rimByte (sid i65 i55 inte : Bool) (m : Masks) : Byte :=
  BitVec.ofBool sid ++ BitVec.ofBool m.r75 ++ BitVec.ofBool i65 ++ BitVec.ofBool i55 ++
    BitVec.ofBool inte ++ BitVec.ofBool m.m75 ++ BitVec.ofBool m.m65 ++ BitVec.ofBool m.m55

/-- `RIM` (R246); on the I8080 its opcode `20h` is unused (R236). -/
def execRim (s : State) : Outcome State Fault Refusal :=
  match s.cfg.variant with
  | .i8085 =>
    let x := s.pinsForRim
    .next (x.2.setA (rimByte x.1.1 x.1.2.1 x.1.2.2 s.inte s.masks))
  | .i8080 => illegalOpcode 0x20#8 id s

end Sys2Proof.Machine
end

