-- ==== Sys2Proof/Machine/Dispatch.lean ====
section
/-! DEFINITION. One arm for each instruction: the call of its meaning. -/

namespace Sys2Proof.Machine

open Host (Outcome)

def exec (i : Instr) (s : State) : Host.Outcome State Fault Refusal :=
  match i with
  | .mov dst src => Sys2Proof.Machine.execMov dst src s
  | .mvi dst v => Sys2Proof.Machine.execMvi dst v s
  | .lxi p v => Sys2Proof.Machine.execLxi p v s
  | .lda addr => Sys2Proof.Machine.execLda addr s
  | .sta addr => Sys2Proof.Machine.execSta addr s
  | .lhld addr => Sys2Proof.Machine.execLhld addr s
  | .shld addr => Sys2Proof.Machine.execShld addr s
  | .ldax p => Sys2Proof.Machine.execLdax p s
  | .stax p => Sys2Proof.Machine.execStax p s
  | .xchg => Sys2Proof.Machine.execXchg s
  | .add r => Sys2Proof.Machine.execAdd r s
  | .adi v => Sys2Proof.Machine.execAdi v s
  | .adc r => Sys2Proof.Machine.execAdc r s
  | .aci v => Sys2Proof.Machine.execAci v s
  | .sub r => Sys2Proof.Machine.execSub r s
  | .sui v => Sys2Proof.Machine.execSui v s
  | .sbb r => Sys2Proof.Machine.execSbb r s
  | .sbi v => Sys2Proof.Machine.execSbi v s
  | .inr r => Sys2Proof.Machine.execInr r s
  | .dcr r => Sys2Proof.Machine.execDcr r s
  | .inx p => Sys2Proof.Machine.execInx p s
  | .dcx p => Sys2Proof.Machine.execDcx p s
  | .dad p => Sys2Proof.Machine.execDad p s
  | .daa => Sys2Proof.Machine.execDaa s
  | .ana r => Sys2Proof.Machine.execAna r s
  | .ani v => Sys2Proof.Machine.execAni v s
  | .xra r => Sys2Proof.Machine.execXra r s
  | .xri v => Sys2Proof.Machine.execXri v s
  | .ora r => Sys2Proof.Machine.execOra r s
  | .ori v => Sys2Proof.Machine.execOri v s
  | .cmp r => Sys2Proof.Machine.execCmp r s
  | .cpi v => Sys2Proof.Machine.execCpi v s
  | .rlc => Sys2Proof.Machine.execRlc s
  | .rrc => Sys2Proof.Machine.execRrc s
  | .ral => Sys2Proof.Machine.execRal s
  | .rar => Sys2Proof.Machine.execRar s
  | .cma => Sys2Proof.Machine.execCma s
  | .cmc => Sys2Proof.Machine.execCmc s
  | .stc => Sys2Proof.Machine.execStc s
  | .jmp addr => Sys2Proof.Machine.execJmp addr s
  | .jnz addr => Sys2Proof.Machine.execJnz addr s
  | .jz addr => Sys2Proof.Machine.execJz addr s
  | .jnc addr => Sys2Proof.Machine.execJnc addr s
  | .jc addr => Sys2Proof.Machine.execJc addr s
  | .jpo addr => Sys2Proof.Machine.execJpo addr s
  | .jpe addr => Sys2Proof.Machine.execJpe addr s
  | .jp addr => Sys2Proof.Machine.execJp addr s
  | .jm addr => Sys2Proof.Machine.execJm addr s
  | .call addr => Sys2Proof.Machine.execCall addr s
  | .cnz addr => Sys2Proof.Machine.execCnz addr s
  | .cz addr => Sys2Proof.Machine.execCz addr s
  | .cnc addr => Sys2Proof.Machine.execCnc addr s
  | .cc addr => Sys2Proof.Machine.execCc addr s
  | .cpo addr => Sys2Proof.Machine.execCpo addr s
  | .cpe addr => Sys2Proof.Machine.execCpe addr s
  | .cp addr => Sys2Proof.Machine.execCp addr s
  | .cm addr => Sys2Proof.Machine.execCm addr s
  | .ret => Sys2Proof.Machine.execRet s
  | .rnz => Sys2Proof.Machine.execRnz s
  | .rz => Sys2Proof.Machine.execRz s
  | .rnc => Sys2Proof.Machine.execRnc s
  | .rc => Sys2Proof.Machine.execRc s
  | .rpo => Sys2Proof.Machine.execRpo s
  | .rpe => Sys2Proof.Machine.execRpe s
  | .rp => Sys2Proof.Machine.execRp s
  | .rm => Sys2Proof.Machine.execRm s
  | .rst n => Sys2Proof.Machine.execRst n s
  | .pchl => Sys2Proof.Machine.execPchl s
  | .push p => Sys2Proof.Machine.execPush p s
  | .pop p => Sys2Proof.Machine.execPop p s
  | .xthl => Sys2Proof.Machine.execXthl s
  | .sphl => Sys2Proof.Machine.execSphl s
  | .inPort port => Sys2Proof.Machine.execInPort port s
  | .outPort port => Sys2Proof.Machine.execOutPort port s
  | .ei => Sys2Proof.Machine.execEi s
  | .di => Sys2Proof.Machine.execDi s
  | .hlt => Sys2Proof.Machine.execHlt s
  | .nop => Sys2Proof.Machine.execNop s
  | .sim => Sys2Proof.Machine.execSim s
  | .rim => Sys2Proof.Machine.execRim s
  | .unused08 => Sys2Proof.Machine.execUnused08 s
  | .unused10 => Sys2Proof.Machine.execUnused10 s
  | .unused18 => Sys2Proof.Machine.execUnused18 s
  | .unused28 => Sys2Proof.Machine.execUnused28 s
  | .unused38 => Sys2Proof.Machine.execUnused38 s
  | .unusedCB addr => Sys2Proof.Machine.execUnusedCB addr s
  | .unusedD9 => Sys2Proof.Machine.execUnusedD9 s
  | .unusedDD addr => Sys2Proof.Machine.execUnusedDD addr s
  | .unusedED addr => Sys2Proof.Machine.execUnusedED addr s
  | .unusedFD addr => Sys2Proof.Machine.execUnusedFD addr s
  | .unused20 => Sys2Proof.Machine.execUnused20 s
  | .unused30 => Sys2Proof.Machine.execUnused30 s

end Sys2Proof.Machine
end

