-- ==== Sys2Proof/Decode.lean ====
section
/-! DEFINITION. The decoder, total on any bytes (30_encoding.md R80 to R93), and after it the encoder (R84). -/

namespace Sys2Proof

/-- Table 1 read from a code (10_state.md R21). -/
def Reg.ofCode (c : BitVec 3) : Reg :=
  match c.toNat with
  | 0 => .b
  | 1 => .c
  | 2 => .d
  | 3 => .e
  | 4 => .h
  | 5 => .l
  | 6 => .m
  | _ => .a

/-- Table 2 with code 3 as `SP` (10_state.md R22). -/
def RegPair.ofCode (c : BitVec 2) : RegPair :=
  match c.toNat with
  | 0 => .bc
  | 1 => .de
  | 2 => .hl
  | _ => .sp

/-- Table 2 with code 3 as `PSW` (10_state.md R22). -/
def StackPair.ofCode (c : BitVec 2) : StackPair :=
  match c.toNat with
  | 0 => .bc
  | 1 => .de
  | 2 => .hl
  | _ => .psw

/-- How many bytes an instruction has, from its opcode alone (30_encoding.md R81). An unused opcode has the length of
the instruction it stands for under the policy `Alias` (46_interrupt_and_other.md R236). -/
def opLength (b1 : Byte) : Nat :=
  match (fieldQuarter b1).toNat with
  | 0 =>
    match (fieldLow b1).toNat with
    | 6 => 2
    | 1 => if fieldBit3 b1 then 1 else 3
    | 2 => if 4 ≤ (fieldMid b1).toNat then 3 else 1
    | _ => 1
  | 3 =>
    match (fieldLow b1).toNat with
    | 6 => 2
    | 2 | 4 => 3
    | 3 => match (fieldMid b1).toNat with
      | 0 | 1 => 3
      | 2 | 3 => 2
      | _ => 1
    | 5 => if fieldBit3 b1 then 3 else 1
    | _ => 1
  | _ => 1

/-- Opcodes `00h` to `3Fh` (30_encoding.md R90, R91). -/
def decodeQuarter0 (v : Config.Variant) (b1 b2 b3 : Byte) : Instr :=
  match (fieldLow b1).toNat with
  | 0 =>
    match (fieldMid b1).toNat, v with
    | 0, _ => .nop
    | 1, _ => .unused08
    | 2, _ => .unused10
    | 3, _ => .unused18
    | 4, .i8085 => .rim
    | 4, .i8080 => .unused20
    | 5, _ => .unused28
    | 6, .i8085 => .sim
    | 6, .i8080 => .unused30
    | _, _ => .unused38
  | 1 => if fieldBit3 b1 then .dad (RegPair.ofCode (fieldPair b1))
         else .lxi (RegPair.ofCode (fieldPair b1)) (le16 b2 b3)
  | 2 =>
    match (fieldMid b1).toNat with
    | 0 => .stax .bc
    | 1 => .ldax .bc
    | 2 => .stax .de
    | 3 => .ldax .de
    | 4 => .shld (le16 b2 b3)
    | 5 => .lhld (le16 b2 b3)
    | 6 => .sta (le16 b2 b3)
    | _ => .lda (le16 b2 b3)
  | 3 => if fieldBit3 b1 then .dcx (RegPair.ofCode (fieldPair b1))
         else .inx (RegPair.ofCode (fieldPair b1))
  | 4 => .inr (Reg.ofCode (fieldMid b1))
  | 5 => .dcr (Reg.ofCode (fieldMid b1))
  | 6 => .mvi (Reg.ofCode (fieldMid b1)) b2
  | _ =>
    match (fieldMid b1).toNat with
    | 0 => .rlc
    | 1 => .rrc
    | 2 => .ral
    | 3 => .rar
    | 4 => .daa
    | 5 => .cma
    | 6 => .stc
    | _ => .cmc

/-- The accumulator operations on a register, `10oooSSS` (30_encoding.md R85). -/
def decodeAccReg (op : BitVec 3) (r : Reg) : Instr :=
  match op.toNat with
  | 0 => .add r
  | 1 => .adc r
  | 2 => .sub r
  | 3 => .sbb r
  | 4 => .ana r
  | 5 => .xra r
  | 6 => .ora r
  | _ => .cmp r

/-- The accumulator operations on an immediate, `11ooo110` (30_encoding.md R85). -/
def decodeAccImm (op : BitVec 3) (v : Byte) : Instr :=
  match op.toNat with
  | 0 => .adi v
  | 1 => .aci v
  | 2 => .sui v
  | 3 => .sbi v
  | 4 => .ani v
  | 5 => .xri v
  | 6 => .ori v
  | _ => .cpi v

/-- Opcodes `C0h` to `FFh` (30_encoding.md R90, R91). -/
def decodeQuarter3 (b1 b2 b3 : Byte) : Instr :=
  match (fieldLow b1).toNat with
  | 0 =>
    match (fieldMid b1).toNat with
    | 0 => .rnz
    | 1 => .rz
    | 2 => .rnc
    | 3 => .rc
    | 4 => .rpo
    | 5 => .rpe
    | 6 => .rp
    | _ => .rm
  | 1 =>
    if fieldBit3 b1 then
      match (fieldPair b1).toNat with
      | 0 => .ret
      | 1 => .unusedD9
      | 2 => .pchl
      | _ => .sphl
    else .pop (StackPair.ofCode (fieldPair b1))
  | 2 =>
    match (fieldMid b1).toNat with
    | 0 => .jnz (le16 b2 b3)
    | 1 => .jz (le16 b2 b3)
    | 2 => .jnc (le16 b2 b3)
    | 3 => .jc (le16 b2 b3)
    | 4 => .jpo (le16 b2 b3)
    | 5 => .jpe (le16 b2 b3)
    | 6 => .jp (le16 b2 b3)
    | _ => .jm (le16 b2 b3)
  | 3 =>
    match (fieldMid b1).toNat with
    | 0 => .jmp (le16 b2 b3)
    | 1 => .unusedCB (le16 b2 b3)
    | 2 => .outPort b2
    | 3 => .inPort b2
    | 4 => .xthl
    | 5 => .xchg
    | 6 => .di
    | _ => .ei
  | 4 =>
    match (fieldMid b1).toNat with
    | 0 => .cnz (le16 b2 b3)
    | 1 => .cz (le16 b2 b3)
    | 2 => .cnc (le16 b2 b3)
    | 3 => .cc (le16 b2 b3)
    | 4 => .cpo (le16 b2 b3)
    | 5 => .cpe (le16 b2 b3)
    | 6 => .cp (le16 b2 b3)
    | _ => .cm (le16 b2 b3)
  | 5 =>
    if fieldBit3 b1 then
      match (fieldPair b1).toNat with
      | 0 => .call (le16 b2 b3)
      | 1 => .unusedDD (le16 b2 b3)
      | 2 => .unusedED (le16 b2 b3)
      | _ => .unusedFD (le16 b2 b3)
    else .push (StackPair.ofCode (fieldPair b1))
  | 6 => decodeAccImm (fieldMid b1) b2
  | _ => .rst (fieldMid b1)

/-- The instruction with opcode `b1`; `b2` and `b3` are the bytes after it and count only as far as its length goes.
`76h` is `HLT` before the pattern of `MOV` is tried (30_encoding.md R92). -/
def decodeOp (v : Config.Variant) (b1 b2 b3 : Byte) : Instr :=
  match (fieldQuarter b1).toNat with
  | 0 => decodeQuarter0 v b1 b2 b3
  | 1 => if b1 = 0x76#8 then .hlt else .mov (Reg.ofCode (fieldMid b1)) (Reg.ofCode (fieldLow b1))
  | 2 => decodeAccReg (fieldMid b1) (Reg.ofCode (fieldLow b1))
  | _ => decodeQuarter3 b1 b2 b3

/-- Why bytes are no instruction. Every opcode is some row of the table, so only a missing byte is left. -/
inductive DecodeError where
  /-- There is no byte to read an opcode from. -/
  | noOpcode
  /-- The opcode needs more bytes than are there. -/
  | truncated (opcode : Byte)
deriving DecidableEq, Repr

/-- The instruction at the front of a list of bytes, and the bytes after it. -/
def decode (v : Config.Variant) : List Byte → Except DecodeError (Instr × List Byte)
  | [] => .error .noOpcode
  | b1 :: rest =>
    match opLength b1, rest with
    | 1, r => .ok (decodeOp v b1 0#8 0#8, r)
    | 2, b2 :: r => .ok (decodeOp v b1 b2 0#8, r)
    | 3, b2 :: b3 :: r => .ok (decodeOp v b1 b2 b3, r)
    | _, _ => .error (.truncated b1)

/-- The bytes of an instruction whose bits are `w`: the table counts bit 0 as the least significant bit of the first
byte, and the bits above `nbits` are 0. -/
def tableBytes (nbits w : Nat) : List Byte :=
  let x := w % 2 ^ nbits
  [BitVec.ofNat 8 x, BitVec.ofNat 8 (x / 256), BitVec.ofNat 8 (x / 65536)]

/-- What the decoder reads from the bits of a row of the opcode table, on the variant of the reset state (log 3). -/
def decodeTableWord (nbits w : Nat) : Option Instr :=
  match decode Config.resetVariant (tableBytes nbits w) with
  | .ok (i, _) => some i
  | .error _ => none

/-! ### The encoder -/

/-- Table 1 (10_state.md R21). -/
def Reg.code : Reg → BitVec 3
  | .b => 0b000#3
  | .c => 0b001#3
  | .d => 0b010#3
  | .e => 0b011#3
  | .h => 0b100#3
  | .l => 0b101#3
  | .m => 0b110#3
  | .a => 0b111#3

/-- Table 2, `SP` reading (10_state.md R22). -/
def RegPair.code : RegPair → BitVec 2
  | .bc => 0b00#2
  | .de => 0b01#2
  | .hl => 0b10#2
  | .sp => 0b11#2

/-- Table 2, `PSW` reading (10_state.md R22). -/
def StackPair.code : StackPair → BitVec 2
  | .bc => 0b00#2
  | .de => 0b01#2
  | .hl => 0b10#2
  | .psw => 0b11#2

/-- Opcode bit 4 of `LDAX` and `STAX` (30_encoding.md R83, format `RPX`). -/
def IndexPair.code : IndexPair → BitVec 1
  | .bc => 0b0#1
  | .de => 0b1#1

/-- Table 3 (10_state.md R30). -/
def Cond.code : Cond → BitVec 3
  | .nz => 0b000#3
  | .z => 0b001#3
  | .nc => 0b010#3
  | .c => 0b011#3
  | .po => 0b100#3
  | .pe => 0b101#3
  | .p => 0b110#3
  | .m => 0b111#3

/-- Format `DS` (30_encoding.md R83). -/
def opDS (dst src : Reg) : Byte := 0b01#2 ++ dst.code ++ src.code

/-- Format `D` and `D_I8`: `00 DDD xxx` (R83). -/
def opD (dst : Reg) (x : BitVec 3) : Byte := 0b00#2 ++ dst.code ++ x

/-- Format `S`: `10 ooo SSS` (R83, R85). -/
def opS (o : BitVec 3) (src : Reg) : Byte := 0b10#2 ++ o ++ src.code

/-- Format `I8` of the accumulator operations: `11 ooo 110` (R85). -/
def opImm (o : BitVec 3) : Byte := 0b11#2 ++ o ++ 0b110#3

/-- Formats `RP` and `RP_I16`: `00 rp xxxx` (R83). -/
def opRP (p : RegPair) (x : BitVec 4) : Byte := 0b00#2 ++ p.code ++ x

/-- Format `RPX`: `00 0p x010` (R83). -/
def opRPX (p : IndexPair) (x : BitVec 4) : Byte := 0b000#3 ++ p.code ++ x

/-- Format `RPQ`: `11 rp xxxx` (R83). -/
def opRPQ (p : StackPair) (x : BitVec 4) : Byte := 0b11#2 ++ p.code ++ x

/-- Formats `CC` and `CC_I16`: `11 CCC xxx` (R83). -/
def opCC (cond : Cond) (x : BitVec 3) : Byte := 0b11#2 ++ cond.code ++ x

/-- An opcode and a 16-bit operand, low byte first (30_encoding.md R86). -/
def with16 (op : Byte) (w : Word) : List Byte := [op, loByte w, hiByte w]

/-- The bytes of an instruction (30_encoding.md R84). -/
def encode : Instr → List Byte
  | .mov dst src => [opDS dst src]
  | .mvi dst v => [opD dst 0b110#3, v]
  | .lxi p w => with16 (opRP p 0b0001#4) w
  | .lda w => with16 0b00111010#8 w
  | .sta w => with16 0b00110010#8 w
  | .lhld w => with16 0b00101010#8 w
  | .shld w => with16 0b00100010#8 w
  | .ldax p => [opRPX p 0b1010#4]
  | .stax p => [opRPX p 0b0010#4]
  | .xchg => [0b11101011#8]
  | .add r => [opS 0b000#3 r]
  | .adi v => [opImm 0b000#3, v]
  | .adc r => [opS 0b001#3 r]
  | .aci v => [opImm 0b001#3, v]
  | .sub r => [opS 0b010#3 r]
  | .sui v => [opImm 0b010#3, v]
  | .sbb r => [opS 0b011#3 r]
  | .sbi v => [opImm 0b011#3, v]
  | .inr r => [opD r 0b100#3]
  | .dcr r => [opD r 0b101#3]
  | .inx p => [opRP p 0b0011#4]
  | .dcx p => [opRP p 0b1011#4]
  | .dad p => [opRP p 0b1001#4]
  | .daa => [0b00100111#8]
  | .ana r => [opS 0b100#3 r]
  | .ani v => [opImm 0b100#3, v]
  | .xra r => [opS 0b101#3 r]
  | .xri v => [opImm 0b101#3, v]
  | .ora r => [opS 0b110#3 r]
  | .ori v => [opImm 0b110#3, v]
  | .cmp r => [opS 0b111#3 r]
  | .cpi v => [opImm 0b111#3, v]
  | .rlc => [0b00000111#8]
  | .rrc => [0b00001111#8]
  | .ral => [0b00010111#8]
  | .rar => [0b00011111#8]
  | .cma => [0b00101111#8]
  | .cmc => [0b00111111#8]
  | .stc => [0b00110111#8]
  | .jmp w => with16 0b11000011#8 w
  | .jnz w => with16 (opCC .nz 0b010#3) w
  | .jz w => with16 (opCC .z 0b010#3) w
  | .jnc w => with16 (opCC .nc 0b010#3) w
  | .jc w => with16 (opCC .c 0b010#3) w
  | .jpo w => with16 (opCC .po 0b010#3) w
  | .jpe w => with16 (opCC .pe 0b010#3) w
  | .jp w => with16 (opCC .p 0b010#3) w
  | .jm w => with16 (opCC .m 0b010#3) w
  | .call w => with16 0b11001101#8 w
  | .cnz w => with16 (opCC .nz 0b100#3) w
  | .cz w => with16 (opCC .z 0b100#3) w
  | .cnc w => with16 (opCC .nc 0b100#3) w
  | .cc w => with16 (opCC .c 0b100#3) w
  | .cpo w => with16 (opCC .po 0b100#3) w
  | .cpe w => with16 (opCC .pe 0b100#3) w
  | .cp w => with16 (opCC .p 0b100#3) w
  | .cm w => with16 (opCC .m 0b100#3) w
  | .ret => [0b11001001#8]
  | .rnz => [opCC .nz 0b000#3]
  | .rz => [opCC .z 0b000#3]
  | .rnc => [opCC .nc 0b000#3]
  | .rc => [opCC .c 0b000#3]
  | .rpo => [opCC .po 0b000#3]
  | .rpe => [opCC .pe 0b000#3]
  | .rp => [opCC .p 0b000#3]
  | .rm => [opCC .m 0b000#3]
  | .rst n => [0b11#2 ++ n ++ 0b111#3]
  | .pchl => [0b11101001#8]
  | .push p => [opRPQ p 0b0101#4]
  | .pop p => [opRPQ p 0b0001#4]
  | .xthl => [0b11100011#8]
  | .sphl => [0b11111001#8]
  | .inPort n => [0b11011011#8, n]
  | .outPort n => [0b11010011#8, n]
  | .ei => [0b11111011#8]
  | .di => [0b11110011#8]
  | .hlt => [0b01110110#8]
  | .nop => [0b00000000#8]
  | .sim => [0b00110000#8]
  | .rim => [0b00100000#8]
  | .unused08 => [0b00001000#8]
  | .unused10 => [0b00010000#8]
  | .unused18 => [0b00011000#8]
  | .unused28 => [0b00101000#8]
  | .unused38 => [0b00111000#8]
  | .unusedCB w => with16 0b11001011#8 w
  | .unusedD9 => [0b11011001#8]
  | .unusedDD w => with16 0b11011101#8 w
  | .unusedED w => with16 0b11101101#8 w
  | .unusedFD w => with16 0b11111101#8 w
  | .unused20 => [0b00100000#8]
  | .unused30 => [0b00110000#8]

end Sys2Proof
end

