-- ==== Sys2Proof/Machine/Fetch.lean ====
section
/-! DEFINITION. The fetch of an instruction (00_scope.md R13 (1)) and the placing of one where the fetch looks. -/

namespace Sys2Proof.Machine

/-- One instruction byte read at `pc`, and `pc` advanced by one (R13). -/
def State.fetchByte (s : State) : Byte × State :=
  let b := s.memRead s.pc
  (b.1, b.2.setPc (s.pc + 1#16))

/-- The instruction at `pc`, and the state with `pc` past it: the opcode, then `B2` and `B3` as its length asks. -/
def State.fetch (s : State) : Instr × State :=
  let b1 := s.fetchByte
  match opLength b1.1 with
  | 2 =>
    let b2 := b1.2.fetchByte
    (decodeOp s.cfg.variant b1.1 b2.1 0#8, b2.2)
  | 3 =>
    let b2 := b1.2.fetchByte
    let b3 := b2.2.fetchByte
    (decodeOp s.cfg.variant b1.1 b2.1 b3.1, b3.2)
  | _ => (decodeOp s.cfg.variant b1.1 0#8 0#8, b1.2)

/-- The address made plain memory, if an unpopulated window or a device stands there. -/
def State.populate (a : Word) (s : State) : State :=
  match s.kindAt a with
  | .ram | .rom => s
  | .unpopulated | .device =>
    { s with cfg := { s.cfg with memMap := { base := a, size := 1, kind := .ram } :: s.cfg.memMap } }

/-- Bytes stored from an address on, each where the fetch will read it. -/
def State.placeBytes (a : Word) (bytes : List Byte) (s : State) : State :=
  match bytes with
  | [] => s
  | v :: rest => State.placeBytes (a + 1#16) rest ((s.populate a).poke a v)

/-- An instruction of the opcode table placed at `pc`, in a machine that fetches next: not halted, no interrupt
accepted (log 21). -/
def State.placeInstruction (nbits w : Nat) (s : State) : State :=
  ((s.placeBytes s.pc (tableBytes nbits w)).setHalted false).setAccepted none

end Sys2Proof.Machine
end

