-- ==== Sys2Proof/Machine/Interrupts.lean ====
section
/-! DEFINITION. The sampling at the end of every instruction and in the halted state (60_exceptions.md R263, R276). -/

namespace Sys2Proof.Machine

/-- A rising edge of RST 7.5 sets its latch, which only the I8085 has (60_exceptions.md R274). -/
def State.latchEdge (x : Slot) (s : State) : State :=
  match s.cfg.variant with
  | .i8080 => s
  | .i8085 => if x.edge75 then s.setMasks { s.masks with r75 := true } else s

/-- What the enabled sampling accepts: `INT` on the I8080 (R263); on the I8085 the unmasked restarts in their priority,
then `INTR` (R276). -/
def State.maskableRequest (x : Slot) (s : State) : Option Entry :=
  let device := if x.intr then some (Entry.supplied x.ack1 x.ack2 x.ack3) else none
  match s.cfg.variant with
  | .i8080 => device
  | .i8085 =>
    if s.masks.r75 && !s.masks.m75 then some (.restart .rst75)
    else if x.req65 && !s.masks.m65 then some (.restart .rst65)
    else if x.req55 && !s.masks.m55 then some (.restart .rst55)
    else device

/-- The non-maskable request, which only the I8085 has (60_exceptions.md R274, R276). -/
def State.trapRequest (x : Slot) (s : State) : Bool :=
  match s.cfg.variant with
  | .i8080 => false
  | .i8085 => x.trap

/-- Whether the sampling sees interrupts enabled: `INTE`, or the `INTE` before a `DI` at that `DI`'s own end (R267). -/
def State.enabled (s : State) : Bool := s.inte || s.inteLate

/-- The sampling itself (R263, R276): `TRAP` first, else the delay of `EI` counted down, else an enabled request. The
entry of what is accepted is the next step's (log 16). -/
def State.decideEntry (x : Slot) (s : State) : State :=
  if s.trapRequest x then s.setAccepted (some (.restart .trap))
  else if 0 < s.eiPending then s.setEnable s.inte s.inteLate (s.eiPending - 1)
  else if s.enabled then
    match s.maskableRequest x with
    | some e => s.setAccepted (some e)
    | none => s
  else s

/-- What `DI`'s own end still saw is over (log 14). -/
def State.endLate (s : State) : State := s.setEnable s.inte false s.eiPending

/-- One sampling point: the next slot of the script is taken; the RESET input (log 18) wins over any request. -/
def State.sample (s : State) : State :=
  let x := s.nextSlot
  let s1 := s.dropSlot
  if x.reset then s1.resetInput else ((s1.latchEdge x).decideEntry x).endLate

end Sys2Proof.Machine
end

