-- ==== Sys2Proof/Machine/Timing.lean ====
section
/-! DEFINITION. The clock counts of 70_reset_and_hazards.md R312, which a model may add up (log 20). -/

namespace Sys2Proof.Machine

/-- `n (m)`: `n` clocks on the I8080, `m` on the I8085 (00_scope.md R15). -/
def perVariant (v : Config.Variant) (n m : Nat) : Nat :=
  match v with
  | .i8080 => n
  | .i8085 => m

/-- One figure for a register, another if the operand is `M`. -/
def ifM (r : Reg) (withM without : Nat) : Nat := if r = .m then withM else without

/-- `J…`: `10 (7/10)`. -/
def clocksJcc (cond : Cond) (s : State) : Nat :=
  if s.flags.holds cond then 10 else perVariant s.cfg.variant 10 7

/-- `C…`: `11/17 (9/18)`. -/
def clocksCcc (cond : Cond) (s : State) : Nat :=
  if s.flags.holds cond then perVariant s.cfg.variant 17 18 else perVariant s.cfg.variant 11 9

/-- `R…`: `5/11 (6/12)`. -/
def clocksRcc (cond : Cond) (s : State) : Nat :=
  if s.flags.holds cond then perVariant s.cfg.variant 11 12 else perVariant s.cfg.variant 5 6

/-- The clock cycles of an instruction that starts in the given state (R312). An unused opcode has the figure of the
I8080 instruction it stands for under the policy `Alias` (46_interrupt_and_other.md R236). -/
def clocks (i : Instr) (s : State) : Nat :=
  let v := s.cfg.variant
  match i with
  | .mov dst src => if dst = .m ∨ src = .m then 7 else perVariant v 5 4
  | .mvi dst _ => ifM dst 10 7
  | .lxi _ _ => 10
  | .lda _ | .sta _ => 13
  | .lhld _ | .shld _ => 16
  | .ldax _ | .stax _ => 7
  | .xchg => 4
  | .add r | .adc r | .sub r | .sbb r | .ana r | .xra r | .ora r | .cmp r => ifM r 7 4
  | .adi _ | .aci _ | .sui _ | .sbi _ | .ani _ | .xri _ | .ori _ | .cpi _ => 7
  | .inr r | .dcr r => ifM r 10 (perVariant v 5 4)
  | .inx _ | .dcx _ => perVariant v 5 6
  | .dad _ => 10
  | .daa => 4
  | .rlc | .rrc | .ral | .rar | .cma | .cmc | .stc => 4
  | .jmp _ => 10
  | .jnz _ => clocksJcc .nz s
  | .jz _ => clocksJcc .z s
  | .jnc _ => clocksJcc .nc s
  | .jc _ => clocksJcc .c s
  | .jpo _ => clocksJcc .po s
  | .jpe _ => clocksJcc .pe s
  | .jp _ => clocksJcc .p s
  | .jm _ => clocksJcc .m s
  | .call _ => perVariant v 17 18
  | .cnz _ => clocksCcc .nz s
  | .cz _ => clocksCcc .z s
  | .cnc _ => clocksCcc .nc s
  | .cc _ => clocksCcc .c s
  | .cpo _ => clocksCcc .po s
  | .cpe _ => clocksCcc .pe s
  | .cp _ => clocksCcc .p s
  | .cm _ => clocksCcc .m s
  | .ret => 10
  | .rnz => clocksRcc .nz s
  | .rz => clocksRcc .z s
  | .rnc => clocksRcc .nc s
  | .rc => clocksRcc .c s
  | .rpo => clocksRcc .po s
  | .rpe => clocksRcc .pe s
  | .rp => clocksRcc .p s
  | .rm => clocksRcc .m s
  | .rst _ => 11
  | .pchl => perVariant v 5 6
  | .push p => if p = .psw then 12 else perVariant v 11 13
  | .pop _ => 10
  | .xthl => perVariant v 18 16
  | .sphl => perVariant v 5 6
  | .inPort _ | .outPort _ => 10
  | .ei | .di => 4
  | .hlt => perVariant v 7 5
  | .nop => 4
  | .sim | .rim => 4
  | .unused08 | .unused10 | .unused18 | .unused28 | .unused38 | .unused20 | .unused30 => 4
  | .unusedCB _ => 10
  | .unusedD9 => 10
  | .unusedDD _ | .unusedED _ | .unusedFD _ => 17

end Sys2Proof.Machine
end

