-- ==== Sys2Proof/Machine/Retire.lean ====
section
/-! DEFINITION. What follows the meaning of an instruction: its clocks counted, then the sampling (00_scope.md R13 (3)). -/

namespace Sys2Proof.Machine

/-- The end of an instruction that started in `before`. -/
def retire (i : Instr) (before : State) (o : Host.Outcome State Fault Refusal) : Host.Outcome State Fault Refusal :=
  match o with
  | .next t => .next (t.setClk (t.clk + clocks i before)).sample
  | .fault r => .fault r
  | .refused r => .refused r

end Sys2Proof.Machine
end

