-- ==== Sys2Proof/Machine/Step.lean ====
section
/-! DEFINITION. One step of the machine (00_scope.md R13, 60_exceptions.md R263, R264, R270, R275). -/

namespace Sys2Proof.Machine

/-- An accepted interrupt is entered: a supplied instruction runs with `pc` not advanced (R264), an internal restart is
made (R275). Else a halted machine only samples (R270). Else the instruction at `pc` is fetched and runs (R13). -/
def step (s : State) : Host.Outcome State Fault Refusal :=
  match s.accepted with
  | some (.supplied b1 b2 b3) =>
    let i := decodeOp s.cfg.variant b1 b2 b3
    retire i s.enterInterrupt (exec i s.enterInterrupt)
  | some (.restart r) => .next (s.takeRestart r)
  | none =>
    if s.halted then .next s.sample
    else
      let f := s.fetch
      retire f.1 f.2 (exec f.1 f.2)

/-- The instruction of an opcode-table row placed where the next step fetches it (log 21). -/
def State.withFetchWord (s : State) (nbits w : Nat) : State := s.placeInstruction nbits w

end Sys2Proof.Machine
end

