-- ==== Sys2Proof/Safety.lean ====
section
/-! DEFINITION. The terms claims are stated in: the legal states, the end of a run, a run that meets no fault, what a
store does, the conditional instructions by their condition, the instructions that write a piece of state. -/

namespace Sys2Proof

/-! ### The conditional instructions by their condition (10_state.md R30) -/

/-- `J…` (43_control_transfer.md R191). -/
def Instr.jcc (cond : Cond) (addr : Word) : Instr :=
  match cond with
  | .nz => .jnz addr
  | .z => .jz addr
  | .nc => .jnc addr
  | .c => .jc addr
  | .po => .jpo addr
  | .pe => .jpe addr
  | .p => .jp addr
  | .m => .jm addr

/-- `C…` (43_control_transfer.md R193). -/
def Instr.ccc (cond : Cond) (addr : Word) : Instr :=
  match cond with
  | .nz => .cnz addr
  | .z => .cz addr
  | .nc => .cnc addr
  | .c => .cc addr
  | .po => .cpo addr
  | .pe => .cpe addr
  | .p => .cp addr
  | .m => .cm addr

/-- `R…` (43_control_transfer.md R195). -/
def Instr.rcc (cond : Cond) : Instr :=
  match cond with
  | .nz => .rnz
  | .z => .rz
  | .nc => .rnc
  | .c => .rc
  | .po => .rpo
  | .pe => .rpe
  | .p => .rp
  | .m => .rm

/-! ### Which instructions write what (10_state.md R24, R25, R28, R31) -/

/-- The row `(unused)` of the opcode table (46_interrupt_and_other.md R236). -/
def Instr.isUnused : Instr → Bool
  | .unused08 | .unused10 | .unused18 | .unused28 | .unused38 | .unusedCB _ | .unusedD9 | .unusedDD _ | .unusedED _
  | .unusedFD _ | .unused20 | .unused30 => true
  | _ => false

/-- Flags `S Z AC P` written (R28). -/
def Instr.writesSzap : Instr → Bool
  | .add _ | .adi _ | .adc _ | .aci _ | .sub _ | .sui _ | .sbb _ | .sbi _ | .cmp _ | .cpi _ | .daa
  | .inr _ | .dcr _ | .ana _ | .ani _ | .xra _ | .xri _ | .ora _ | .ori _ | .pop .psw => true
  | _ => false

/-- Flag `CY` written (R28). -/
def Instr.writesCy : Instr → Bool
  | .add _ | .adi _ | .adc _ | .aci _ | .sub _ | .sui _ | .sbb _ | .sbi _ | .cmp _ | .cpi _ | .daa
  | .dad _ | .ana _ | .ani _ | .xra _ | .xri _ | .ora _ | .ori _
  | .rlc | .rrc | .ral | .rar | .cmc | .stc | .pop .psw => true
  | _ => false

/-- Calls: `CALL`, `C…`, `RST`, and the unused opcodes that stand for `CALL` (R24, R25, R236). -/
def Instr.isCall : Instr → Bool
  | .call _ | .cnz _ | .cz _ | .cnc _ | .cc _ | .cpo _ | .cpe _ | .cp _ | .cm _ | .rst _
  | .unusedDD _ | .unusedED _ | .unusedFD _ => true
  | _ => false

/-- Returns: `RET`, `R…`, and the unused opcode that stands for `RET` (R24, R25, R236). -/
def Instr.isReturn : Instr → Bool
  | .ret | .rnz | .rz | .rnc | .rc | .rpo | .rpe | .rp | .rm | .unusedD9 => true
  | _ => false

/-- Jumps: `JMP`, `J…`, `PCHL`, and the unused opcode that stands for `JMP` (R25, R236). -/
def Instr.isJump : Instr → Bool
  | .jmp _ | .jnz _ | .jz _ | .jnc _ | .jc _ | .jpo _ | .jpe _ | .jp _ | .jm _ | .pchl | .unusedCB _ => true
  | _ => false

/-- `SP` written (R24). -/
def Instr.writesSp (i : Instr) : Bool :=
  i.isCall || i.isReturn ||
    match i with
    | .lxi .sp _ | .inx .sp | .dcx .sp | .sphl | .push _ | .pop _ => true
    | _ => false

/-- `PC` written by the instruction itself (R25). -/
def Instr.writesPc (i : Instr) : Bool := i.isCall || i.isReturn || i.isJump

/-- Memory written (20_memory.md R54). -/
def Instr.writesMemory (i : Instr) : Bool :=
  i.isCall ||
    match i with
    | .mov .m _ | .mvi .m _ | .sta _ | .shld _ | .stax _ | .inr .m | .dcr .m | .push _ | .xthl => true
    | _ => false

end Sys2Proof

namespace Sys2Proof.Machine

/-! ### What a store does (20_memory.md R50, R55, R58) -/

/-- The event of a write, if a device stands at the address. -/
def State.writeEvents (s : State) (a : Word) (v : Byte) : List Event :=
  if s.kindAt a = .device then [.deviceWrite a v] else []

/-- `t` is `s` but for the bytes that hold after the given writes, in their order, each landing where RAM stands, and
for the events of those that reach a device. -/
def Stored (s t : State) (writes : List (Word × Byte)) : Prop :=
  t = { s with mem := t.mem, env := t.env } ∧
  t.env = { s.env with history := s.env.history ++ writes.flatMap (fun w => s.writeEvents w.1 w.2) } ∧
  ∀ x : Word, t.byteAt x = writes.foldl (fun b w => if x = w.1 ∧ s.kindAt x = .ram then w.2 else b) (s.byteAt x)

/-- Every byte of memory reads as before. -/
def KeepsMemory (s t : State) : Prop := ∀ x : Word, t.byteAt x = s.byteAt x

/-- Flags from an 8-bit result (10_state.md R27). -/
def ResultFlags (res : Byte) (f : Flags) : Prop :=
  (f.z = true ↔ res.toNat = 0) ∧ (f.s = true ↔ 128 ≤ res.toNat) ∧
  (f.p = true ↔ Even ((List.range 8).countP (fun i => res.getLsbD i)))

/-! ### What the accumulator instructions leave (41_arithmetic.md R130, 42_logical.md R160) -/

/-- `t` is `s` but for `A`, the flags and the environment, which is `env`; no byte of memory changes. -/
def AccumulatorOnly (s t : State) (env : Env) : Prop :=
  t = { s with regs := { s.regs with a := t.regs.a }, flags := t.flags, env := env } ∧ KeepsMemory s t

/-- `A` and the flags after `A + v + c`. -/
def SumIn (s t : State) (v : Byte) (c : Bool) : Prop :=
  t.regs.a.toNat = (s.regs.a.toNat + v.toNat + c.toNat) % 256 ∧
  (t.flags.cy = true ↔ 256 ≤ s.regs.a.toNat + v.toNat + c.toNat) ∧
  t.flags.ac = acAdd s.cfg s.regs.a v c ∧ ResultFlags t.regs.a t.flags

/-- `res` and the flags of `t` after `A - v - c`, with `CY` the borrow. -/
def DifferenceIn (s t : State) (res v : Byte) (c : Bool) : Prop :=
  (res.toNat : Int) = ((s.regs.a.toNat : Int) - v.toNat - c.toNat) % 256 ∧
  (t.flags.cy = true ↔ s.regs.a.toNat < v.toNat + c.toNat) ∧
  t.flags.ac = acSub s.cfg s.regs.a v c ∧ ResultFlags res t.flags

/-- `A` and the flags after a bitwise operation that gives bit `i` of the result as `op i`. -/
def BitwiseIn (t : State) (op : Nat → Bool) (ac : Bool) : Prop :=
  (∀ i < 8, t.regs.a.getLsbD i = op i) ∧ t.flags.cy = false ∧ t.flags.ac = ac ∧ ResultFlags t.regs.a t.flags

/-! ### Legal states and runs -/

/-- A `RESET_STATE` that leaves the delay of `EI` as an `EI` could have left it. -/
def resetStateLegal (cfg : Config.Params) : Bool :=
  decide (cfg.resetState.eiPending ≤ cfg.eiDelay.count)
    && (cfg.resetState.inte || decide (cfg.resetState.eiPending = 0))

/-- An accepted interrupt that the variant has; only `TRAP` is accepted while the delay of `EI` runs
(60_exceptions.md R263, R276). -/
def State.entryLegal (s : State) : Bool :=
  match s.accepted with
  | none => true
  | some (.supplied _ _ _) => decide (s.eiPending = 0)
  | some (.restart .trap) => s.cfg.variant = .i8085
  | some (.restart _) => decide (s.cfg.variant = .i8085) && decide (s.eiPending = 0)

/-- A state that the machine can be in between two steps: memory in its canonical form, `EI_PENDING` within `EI_DELAY`
and running only while `INTE` is set, nothing left of a `DI`'s own end, a legal accepted interrupt. -/
def State.legal (s : State) : Bool :=
  s.mem.wf && decide (s.eiPending ≤ s.cfg.eiDelay.count) && (s.inte || decide (s.eiPending = 0))
    && !s.inteLate && s.entryLegal && resetStateLegal s.cfg

/-- A slot that cannot end the halted state of `s`, now or later, when `delay` is what is left of the delay of `EI`: no
RESET, no `TRAP` where there is one; while interrupts are enabled no unmasked RST 7.5, whose latch outlasts the delay, and
after the delay no unmasked level and no `INT` or `INTR` (60_exceptions.md R263, R270, R274, R276). -/
def State.slotKeepsHalt (s : State) (delay : Nat) (x : Slot) : Bool :=
  !x.reset && !s.trapRequest x &&
    (!s.inte ||
      match s.cfg.variant with
      | .i8080 => decide (0 < delay) || !x.intr
      | .i8085 =>
        (!(s.masks.r75 || x.edge75) || s.masks.m75) &&
          (decide (0 < delay) || ((!x.req65 || s.masks.m65) && (!x.req55 || s.masks.m55) && !x.intr)))

/-- The slots still to come, and after them a source that never requests, cannot end the halted state of `s`. -/
def State.slotsKeepHalt (s : State) (delay : Nat) (slots : List Slot) : Bool :=
  match slots with
  | [] => s.slotKeepsHalt delay Slot.quiet
  | x :: rest => s.slotKeepsHalt delay x && s.slotsKeepHalt (delay - 1) rest

/-- The end of a run (00_scope.md R18): halted, with no interrupt able to end it. Nothing may be left of `DI`'s own end
(log 14); no halted machine between two steps has that. -/
def State.ended (s : State) : Bool :=
  s.halted && s.accepted.isNone && !s.inteLate && s.slotsKeepHalt s.eiPending s.env.slots

/-- A step at `s` that runs the instruction `i` from the state `f`, in which the fetch has left the machine: after a next
state its clock cycles are counted and the sampling follows (log 20), and a fault ends the step (log 25). -/
def StepRuns (s : State) (i : Instr) (f : State) : Prop :=
  (∀ t, exec i f = .next t → step s = .next ({ t with clk := t.clk + clocks i f } : State).sample) ∧
  (∀ r, exec i f = .fault r → step s = .fault r)

/-- `n` steps without a fault or a refusal. -/
def runsFor (n : Nat) (s : State) : Prop := ∃ t, Sys2Proof.core.run n s = .next t

end Sys2Proof.Machine
end

