-- ==== Sys2Proof/WellFormed.lean ====
section
/-! DEFINITION. Which terms of Instr are instructions of a variant. Every other value of every field is legal
(30_encoding.md R94). -/

namespace Sys2Proof

/-- `MOV M,M` is no instruction (30_encoding.md R92); `SIM` and `RIM` exist on the I8085 only, and their opcodes are
unused on the I8080 only (R2, R93). -/
def Instr.wellFormed (v : Config.Variant) : Instr → Bool
  | .mov .m .m => false
  | .sim | .rim => v = .i8085
  | .unused20 | .unused30 => v = .i8080
  | _ => true

end Sys2Proof
end

