-- ==== Sys2Proof/Certificates/Slice0/Obligations.lean ====
section
/-! DEFINITION. The statements about the model. A result of an instruction is stated as the next state that `exec`
answers, in full: an equation of records says which fields change, and every other field is unchanged. -/

open Sys2Proof Sys2Proof.Machine

/-! ### Encoding -/

/-- Decoding the bytes of a well-formed instruction gives it back, and leaves the bytes after it. -/
def Obligations.DecodeOfEncode : Prop :=
  ∀ (v : Config.Variant) (i : Instr) (rest : List Byte), i.wellFormed v = true →
    decode v (encode i ++ rest) = .ok (i, rest)

/-- Any three bytes decode to a well-formed instruction whose bytes they begin with, so no two instructions share an
encoding and no bit of an encoding is dropped. -/
def Obligations.EncodeOfDecode : Prop :=
  ∀ (v : Config.Variant) (b1 b2 b3 : Byte), ∃ i rest,
    decode v [b1, b2, b3] = .ok (i, rest) ∧ i.wellFormed v = true ∧ encode i ++ rest = [b1, b2, b3]

/-- Words written out from the patterns of 30_encoding.md R84 and from the examples of 40 to 47 decode to the
instruction they stand for. -/
def Obligations.SpecWordsDecode : Prop :=
  ∀ v : Config.Variant,
    decode v [0b01100111#8] = .ok (.mov .h .a, []) ∧
    decode v [0x0E#8, 0xA6#8] = .ok (.mvi .c 0xA6#8, []) ∧
    decode v [0x11#8, 0xCD#8, 0xAB#8] = .ok (.lxi .de 0xABCD#16, []) ∧
    decode v [0b10000001#8] = .ok (.add .c, []) ∧
    decode v [0b10100010#8] = .ok (.ana .d, []) ∧
    decode v [0xFE#8, 0xD9#8] = .ok (.cpi 0xD9#8, []) ∧
    decode v [0xC3#8, 0x7D#8, 0x6B#8] = .ok (.jmp 0x6B7D#16, []) ∧
    decode v [0xDC#8, 0xF6#8, 0xDE#8] = .ok (.cc 0xDEF6#16, []) ∧
    decode v [0b11110111#8] = .ok (.rst 6#3, []) ∧
    decode v [0b11010101#8] = .ok (.push .de, []) ∧
    decode v [0xDB#8, 0x2A#8] = .ok (.inPort 0x2A#8, []) ∧
    decode v [0b11111011#8] = .ok (.ei, []) ∧
    decode .i8085 [0b00110000#8] = .ok (.sim, []) ∧ decode .i8085 [0b00100000#8] = .ok (.rim, [])

/-- `76h` is `HLT`, no other opcode is, and no opcode is `MOV M,M`; every other pair of operands of `MOV` has the opcode
`01DDDSSS`. -/
def Obligations.HaltIsNoMove : Prop :=
  ∀ (v : Config.Variant) (b1 b2 b3 : Byte),
    (decodeOp v b1 b2 b3 = .hlt ↔ b1 = 0x76#8) ∧ decodeOp v b1 b2 b3 ≠ .mov .m .m ∧
    ∀ dst src : Reg, ¬(dst = .m ∧ src = .m) →
      (decodeOp v b1 b2 b3 = .mov dst src ↔ b1 = 0b01#2 ++ dst.code ++ src.code)

/-- The unused opcodes: twelve on the I8080; on the I8085 `20h` is `RIM` and `30h` is `SIM`, leaving ten. -/
def Obligations.UnusedOpcodes : Prop :=
  ∀ b1 b2 b3 : Byte,
    ((decodeOp .i8080 b1 b2 b3).isUnused = true ↔
      b1 ∈ [0x08#8, 0x10#8, 0x18#8, 0x20#8, 0x28#8, 0x30#8, 0x38#8, 0xCB#8, 0xD9#8, 0xDD#8, 0xED#8, 0xFD#8]) ∧
    ((decodeOp .i8085 b1 b2 b3).isUnused = true ↔
      b1 ∈ [0x08#8, 0x10#8, 0x18#8, 0x28#8, 0x38#8, 0xCB#8, 0xD9#8, 0xDD#8, 0xED#8, 0xFD#8]) ∧
    (decodeOp .i8085 b1 b2 b3 = .rim ↔ b1 = 0x20#8) ∧ (decodeOp .i8085 b1 b2 b3 = .sim ↔ b1 = 0x30#8)

/-- The length of every defined opcode. -/
def Obligations.OpcodeLengths : Prop :=
  let three := [0x01#8, 0x11#8, 0x21#8, 0x31#8, 0x22#8, 0x2A#8, 0x32#8, 0x3A#8, 0xC3#8, 0xC2#8, 0xCA#8, 0xD2#8, 0xDA#8,
    0xE2#8, 0xEA#8, 0xF2#8, 0xFA#8, 0xCD#8, 0xC4#8, 0xCC#8, 0xD4#8, 0xDC#8, 0xE4#8, 0xEC#8, 0xF4#8, 0xFC#8]
  let two := [0x06#8, 0x0E#8, 0x16#8, 0x1E#8, 0x26#8, 0x2E#8, 0x36#8, 0x3E#8, 0xC6#8, 0xCE#8, 0xD6#8, 0xDE#8, 0xE6#8,
    0xEE#8, 0xF6#8, 0xFE#8, 0xD3#8, 0xDB#8]
  ∀ (v : Config.Variant) (b1 b2 b3 : Byte), (decodeOp v b1 b2 b3).isUnused = false →
    (encode (decodeOp v b1 b2 b3)).length = if b1 ∈ three then 3 else if b1 ∈ two then 2 else 1

/-! ### The step -/

/-- A step with no interrupt accepted fetches and runs the instruction at `PC`. Where RAM or ROM holds its bytes, the
fetch only moves `PC` past them. Whatever stands there, the fetch is one memory read for each byte of the instruction, in
their order, so a byte from an unpopulated address or a device is a free one, with its draw and its event (log 9). That
the clocks are counted is log 20, that a fault ends the step log 25; no instruction is refused
(`StepsStopOnlyAtUnusedOpcodes`). -/
def Obligations.StepRunsDecodedInstruction : Prop :=
  ∀ (s : State) (i : Instr) (rest : List Byte), s.accepted = none → s.halted = false →
    let past := { s with pc := s.pc + BitVec.ofNat 16 (encode i).length }
    ((∀ k < (encode i).length,
        s.kindAt (s.pc + BitVec.ofNat 16 k) = .ram ∨ s.kindAt (s.pc + BitVec.ofNat 16 k) = .rom) →
      decode s.cfg.variant [s.byteAt s.pc, s.byteAt (s.pc + 1#16), s.byteAt (s.pc + 2#16)] = .ok (i, rest) →
      StepRuns s i past) ∧
    let r1 := s.memRead s.pc
    let r2 := r1.2.memRead (s.pc + 1#16)
    let r3 := r2.2.memRead (s.pc + 2#16)
    decode s.cfg.variant [r1.1, r2.1, r3.1] = .ok (i, rest) →
      ((encode i).length = 1 → StepRuns s i { past with env := r1.2.env }) ∧
      ((encode i).length = 2 → StepRuns s i { past with env := r2.2.env }) ∧
      ((encode i).length = 3 → StepRuns s i { past with env := r3.2.env })

/-- While the machine is halted and no interrupt is accepted, a step fetches nothing: it only samples (60_exceptions.md
R270, the spec's own rule from general knowledge) and counts no clock cycle (log 20: the spec has no figure), and without
RESET `PC`, the halted state and the history stay too. -/
def Obligations.HaltedStepOnlySamples : Prop :=
  ∀ s : State, s.accepted = none → s.halted = true →
    ∃ t, step s = .next t ∧ t = s.sample ∧ t.regs = s.regs ∧ t.flags = s.flags ∧ t.sp = s.sp ∧ t.mem = s.mem ∧
      t.clk = s.clk ∧ t.cfg = s.cfg ∧
      (s.nextSlot.reset = false →
        t.pc = s.pc ∧ t.halted = true ∧ t.inte = s.inte ∧ t.env = { s.env with slots := s.env.slots.tail })

/-- The entry with a device-supplied instruction (60_exceptions.md section 3; the rule is the spec's own, from general
knowledge): `INTE` and `HALTED` are cleared, `PC` is not advanced, and the supplied instruction runs by its ordinary rule.
That it is the step after the acceptance is log 16, that a sampling follows it log 17, that its clocks are counted log 20,
that an unused supplied opcode faults the step log 25. For `RST n` the state after the entry is given in full. -/
def Obligations.SuppliedInstructionEntry : Prop :=
  ∀ (s : State) (b1 b2 b3 : Byte), s.accepted = some (.supplied b1 b2 b3) →
    let i := decodeOp s.cfg.variant b1 b2 b3
    let e := { s with inte := false, inteLate := false, eiPending := 0, halted := false, accepted := none }
    StepRuns s i e ∧
    ∀ n : BitVec 3, b1 = 0b11#2 ++ n ++ 0b111#3 → s.nextSlot.reset = false →
      ∃ t, step s = .next t ∧ t.pc.toNat = 8 * n.toNat ∧ t.sp = s.sp - 2#16 ∧
        t.inte = false ∧ t.eiPending = 0 ∧ t.halted = false ∧ t.regs = s.regs ∧ t.flags = s.flags ∧
        ∀ x : Word, t.byteAt x =
          if s.kindAt x = .ram ∧ x = s.sp - 1#16 then hiByte s.pc
          else if s.kindAt x = .ram ∧ x = s.sp - 2#16 then loByte s.pc else s.byteAt x

/-- The entry of the I8085's own inputs (60_exceptions.md section 5; the rule is the spec's own, from general knowledge):
`PC` pushed, the vector, interrupts off, halt left, and the RST 7.5 latch cleared by RST 7.5 only. That it is a step of
its own after the acceptance is log 16, that no sampling follows it log 17, that it counts no clock cycle log 20. -/
def Obligations.InternalRestartEntry : Prop :=
  ∀ (s : State) (r : Restart), s.accepted = some (.restart r) →
    ∃ t, step s = .next t ∧
      Stored
        { s with
          inte := false, inteLate := false, eiPending := 0, halted := false, accepted := none
          sp := s.sp - 2#16
          pc := match r with
            | .trap => 0x0024#16
            | .rst55 => 0x002C#16
            | .rst65 => 0x0034#16
            | .rst75 => 0x003C#16
          masks := { s.masks with r75 := s.masks.r75 && decide (r ≠ .rst75) } }
        t [(s.sp - 1#16, hiByte s.pc), (s.sp - 2#16, loByte s.pc)]

/-- The sampling point of the I8080: the delay of `EI` counted down, else an enabled request accepted (the acceptance is
kept for the next step, log 16; a request is what the next slot of the script says, log 11). -/
def Obligations.SamplingOfI8080 : Prop :=
  ∀ s : State, s.cfg.variant = .i8080 → s.nextSlot.reset = false → s.accepted = none →
    s.sample = { s with
      eiPending := s.eiPending - 1
      inteLate := false
      accepted := if s.eiPending = 0 ∧ (s.inte = true ∨ s.inteLate = true) ∧ s.nextSlot.intr = true
        then some (.supplied s.nextSlot.ack1 s.nextSlot.ack2 s.nextSlot.ack3) else none
      env := { s.env with slots := s.env.slots.tail } }

/-- The sampling point of the I8085 and its priorities (60_exceptions.md section 5; the rules are the spec's own, from
general knowledge; log 11, 16): `TRAP` before the delay of `EI`, then RST 7.5, 6.5, 5.5 if not masked, then `INTR`. -/
def Obligations.SamplingOfI8085 : Prop :=
  ∀ s : State, s.cfg.variant = .i8085 → s.nextSlot.reset = false → s.accepted = none →
    let x := s.nextSlot
    let r75 := s.masks.r75 || x.edge75
    s.sample = { s with
      masks := { s.masks with r75 := r75 }
      eiPending := if x.trap = true then s.eiPending else s.eiPending - 1
      inteLate := false
      accepted :=
        if x.trap = true then some (.restart .trap)
        else if 0 < s.eiPending then none
        else if s.inte = false ∧ s.inteLate = false then none
        else if r75 = true ∧ s.masks.m75 = false then some (.restart .rst75)
        else if x.req65 = true ∧ s.masks.m65 = false then some (.restart .rst65)
        else if x.req55 = true ∧ s.masks.m55 = false then some (.restart .rst55)
        else if x.intr = true then some (.supplied x.ack1 x.ack2 x.ack3)
        else none
      env := { s.env with slots := s.env.slots.tail } }

/-- The delayed enabling: no step made while `EI_PENDING` runs, and no step that runs `EI`, accepts an interrupt other
than `TRAP`; the step of an `EI` leaves `EI_DELAY - 1` further sampling points without an acceptance. -/
def Obligations.EnableIsDelayed : Prop :=
  ∀ s t : State, s.accepted = none → s.nextSlot.reset = false →
    (s.cfg.variant = .i8085 → s.nextSlot.trap = false) → step s = .next t →
    (0 < s.eiPending → t.accepted = none) ∧
    (s.halted = false → s.fetch.1 = .ei →
      t.accepted = none ∧ t.inte = true ∧ t.eiPending + 1 = s.cfg.eiDelay.count)

/-- The end of a run: a halted machine that no interrupt can end stays so in every later step, and its registers, flags,
`SP`, `PC` and memory stay as they are. Any other halted machine to which no RESET is shown accepts an interrupt after
some steps. That the sampling goes on in the halted state is 60_exceptions.md R270, the spec's own rule from general
knowledge; that nothing is requested after the listed slots is log 11. -/
def Obligations.EndOfRunIsFinal : Prop :=
  ∀ s : State,
    (s.ended = true → ∀ n : Nat,
      ∃ t : State, Sys2Proof.core.run n s = .next t ∧ t.ended = true ∧ t.halted = true ∧ t.regs = s.regs ∧
        t.flags = s.flags ∧ t.sp = s.sp ∧ t.pc = s.pc ∧ t.mem = s.mem) ∧
    (s.ended = false → s.halted = true → s.accepted = none → s.inteLate = false →
      (∀ x ∈ s.env.slots, x.reset = false) →
      ∃ (n : Nat) (t : State), Sys2Proof.core.run n s = .next t ∧ t.accepted ≠ none ∧ t.halted = true)

/-! ### Reset -/

/-- The values that 70_reset_and_hazards.md section 1 gives the reset (the spec's own, from general knowledge). -/
def Obligations.ResetValues : Prop :=
  State.reset.pc = 0x0000#16 ∧ State.reset.inte = false ∧ State.reset.halted = false ∧ State.reset.eiPending = 0 ∧
  State.reset.masks = { m55 := true, m65 := true, m75 := true, r75 := false, sod := false }

/-- The RESET input at a sampling point (log 18): `RESET_STATE` is assigned, the I8085's latches on the I8085 only, a
change of `SOD` is an event, and everything else is left as it was. -/
def Obligations.ResetInputAssigns : Prop :=
  ∀ s : State, s.nextSlot.reset = true →
    let r := s.cfg.resetState
    s.sample = { s with
      pc := r.pc, inte := r.inte, inteLate := false, eiPending := r.eiPending, halted := r.halted, accepted := none
      masks := if s.cfg.variant = .i8085
        then { m55 := r.m55, m65 := r.m65, m75 := r.m75, r75 := r.r75, sod := r.sod } else s.masks
      env := { s.env with
        slots := s.env.slots.tail
        history := s.env.history ++
          if s.cfg.variant = .i8085 ∧ r.sod ≠ s.masks.sod then [.serial r.sod] else [] } }

/-! ### What every step and every instruction keeps -/

/-- Every step keeps a legal state legal: memory canonical, `EI_PENDING` within `EI_DELAY` and running only while `INTE`
is set, the accepted interrupt one that the processor has. -/
def Obligations.StepKeepsLegal : Prop := ∀ s t : State, s.legal = true → step s = .next t → t.legal = true

/-- The state after reset is legal. -/
def Obligations.ResetIsLegal : Prop := State.reset.legal = true

/-- No step changes a parameter (log 3), and no step changes a byte where no RAM stands: ROM ignores a write
(20_memory.md R58), and that a write to an unpopulated address or a device changes no memory is log 9. -/
def Obligations.StepKeepsParametersAndRom : Prop :=
  ∀ s t : State, step s = .next t →
    t.cfg = s.cfg ∧ ∀ x : Word, s.kindAt x ≠ .ram → t.byteAt x = s.byteAt x

/-- No step is refused, and a step faults only at an unused opcode of its processor for which `Alias` is not chosen:
there is no synchronous exception. -/
def Obligations.StepsStopOnlyAtUnusedOpcodes : Prop :=
  ∀ s : State, (∀ r, step s ≠ .refused r) ∧
    ∀ f, step s = .fault f → ¬(s.cfg.illegal = .aliased ∧ s.cfg.variant = .i8080) ∧
      ∃ b : Byte, f = .illegalOpcode b ∧ (decodeOp s.cfg.variant b 0#8 0#8).isUnused = true

/-- A step only adds to the history of events. -/
def Obligations.HistoryOnlyGrows : Prop :=
  ∀ s t : State, step s = .next t → ∃ more, t.env.history = s.env.history ++ more

/-- An instruction that is not in the list of 10_state.md R28 writes no flag; `INR` and `DCR` do not write `CY`, and the
instructions listed with `CY` only write no other. -/
def Obligations.FlagWriters : Prop :=
  ∀ (i : Instr) (s t : State), exec i s = .next t →
    (i.writesSzap = false →
      t.flags.s = s.flags.s ∧ t.flags.z = s.flags.z ∧ t.flags.ac = s.flags.ac ∧ t.flags.p = s.flags.p) ∧
    (i.writesCy = false → t.flags.cy = s.flags.cy)

/-- `INTE` is written by `EI` and `DI` only, the halted state by `HLT` only, the I8085's latches by `SIM` only, the count
of `IN` by `IN` only; no instruction accepts an interrupt, takes a slot of the script or counts clock cycles itself. -/
def Obligations.ControlStateWriters : Prop :=
  ∀ (i : Instr) (s t : State), exec i s = .next t →
    (i ≠ .ei → i ≠ .di → t.inte = s.inte ∧ t.inteLate = s.inteLate ∧ t.eiPending = s.eiPending) ∧
    (i ≠ .hlt → t.halted = s.halted) ∧ (i ≠ .sim → t.masks = s.masks) ∧
    ((∀ p, i ≠ .inPort p) → t.env.inputs = s.env.inputs) ∧
    t.accepted = s.accepted ∧ t.env.slots = s.env.slots ∧ t.clk = s.clk ∧ t.cfg = s.cfg

/-- `SP` is written by `LXI SP`, `INX SP`, `DCX SP`, `SPHL`, `PUSH`, `POP`, the calls and the returns only. `PUSH` and a
call lower it by 2, `POP` and a return raise it by 2; a `C…` or `R…` whose condition does not hold changes nothing. -/
def Obligations.StackPointerWriters : Prop :=
  ∀ (i : Instr) (s t : State), exec i s = .next t →
    (i.writesSp = false → t.sp = s.sp) ∧
    ((i.isCall = true ∧ ∀ cond w, i ≠ .ccc cond w) ∨ (∃ p, i = .push p) → t.sp = s.sp - 2#16) ∧
    (∀ cond w, i = .ccc cond w → if s.flags.holds cond then t.sp = s.sp - 2#16 else t = s) ∧
    ((i.isReturn = true ∧ ∀ cond, i ≠ .rcc cond) ∨ (∃ p, i = .pop p) → t.sp = s.sp + 2#16) ∧
    (∀ cond, i = .rcc cond → if s.flags.holds cond then t.sp = s.sp + 2#16 else t = s)

/-- `PC` is written by the jumps, the calls and the returns only. -/
def Obligations.ProgramCounterWriters : Prop :=
  ∀ (i : Instr) (s t : State), exec i s = .next t → i.writesPc = false → t.pc = s.pc

/-- An instruction without a memory-write cycle changes no byte of memory. -/
def Obligations.MemoryWriters : Prop :=
  ∀ (i : Instr) (s t : State), exec i s = .next t → i.writesMemory = false → ∀ x : Word, t.byteAt x = s.byteAt x

/-! ### Memory cycles and operands -/

/-- A memory read gives the byte of RAM or ROM and changes nothing; at an unpopulated address or a device it gives a
byte of which nothing is known, and changes nothing but the free-value counter and the history. A memory write stores
where RAM stands, reaches a device as an event, and changes no other location. The rules for an unpopulated address and a
device are the model's, log 9: that a write to an unpopulated address is ignored is DEDUCED, that a device access is an
event and changes no memory is DESIGN CHOICE. -/
def Obligations.MemoryCycles : Prop :=
  ∀ (s : State) (a : Word) (v : Byte),
    (s.kindAt a = .ram ∨ s.kindAt a = .rom → s.memRead a = (s.byteAt a, s)) ∧
    (s.kindAt a = .unpopulated → (s.memRead a).2 = { s with env := { s.env with draws := s.env.draws + 1 } }) ∧
    (s.kindAt a = .device → (s.memRead a).2 = { s with env := { s.env with
      draws := s.env.draws + 1, history := s.env.history ++ [.deviceRead a (s.memRead a).1] } }) ∧
    Stored s (s.memWrite a v) [(a, v)]

/-- The operand accessors: a register is read and written without any other change, `M` is the memory byte at `HL`, a
pair is its two registers, the first-named one the high byte. -/
def Obligations.OperandAccess : Prop :=
  ∀ (s : State) (r : Reg) (v : Byte) (p : RegPair) (w : Word),
    (readReg r s = match r with
      | .b => (s.regs.b, s) | .c => (s.regs.c, s) | .d => (s.regs.d, s) | .e => (s.regs.e, s)
      | .h => (s.regs.h, s) | .l => (s.regs.l, s) | .a => (s.regs.a, s) | .m => s.memRead s.hl) ∧
    (r ≠ .m → writeReg r v s = { s with regs := (writeReg r v s).regs } ∧ (readReg r (writeReg r v s)).1 = v ∧
      ∀ q, q ≠ .m → q ≠ r → (readReg q (writeReg r v s)).1 = (readReg q s).1) ∧
    writeReg .m v s = s.memWrite s.hl v ∧
    ((readPair p s).toNat = match p with
      | .bc => 256 * s.regs.b.toNat + s.regs.c.toNat
      | .de => 256 * s.regs.d.toNat + s.regs.e.toNat
      | .hl => 256 * s.regs.h.toNat + s.regs.l.toNat
      | .sp => s.sp.toNat) ∧
    readPair p (writePair p w s) = w ∧ (∀ q, q ≠ p → readPair q (writePair p w s) = readPair q s) ∧
    writePair p w s = { s with regs := (writePair p w s).regs, sp := (writePair p w s).sp } ∧
    (writePair p w s).regs.a = s.regs.a ∧ (hiByte w).toNat = w.toNat / 256 ∧ (loByte w).toNat = w.toNat % 256

/-! ### Data movement -/

/-- `MOV r1,r2` in every form (`M,M` is no form of it: 30_encoding.md R92): the source's byte in the destination,
`MOV M,r` storing it at `HL`. -/
def Obligations.MovCopies : Prop :=
  ∀ (s : State) (dst src : Reg), ¬(dst = .m ∧ src = .m) →
    encode (.mov dst src) = [0b01#2 ++ dst.code ++ src.code] ∧
    (clocks (.mov dst src) s = if dst = .m ∨ src = .m then 7 else perVariant s.cfg.variant 5 4) ∧
    ∃ t, exec (.mov dst src) s = .next t ∧
      (dst ≠ .m →
        t = { s with regs := t.regs, env := (readReg src s).2.env } ∧ KeepsMemory s t ∧
        (readReg dst t).1 = (readReg src s).1 ∧
        ∀ q, q ≠ .m → q ≠ dst → (readReg q t).1 = (readReg q s).1) ∧
      (dst = .m → Stored (readReg src s).2 t [(s.hl, (readReg src s).1)])

/-- `MVI r,B2`: the immediate in a register, or stored at `HL`. -/
def Obligations.MviLoads : Prop :=
  ∀ (s : State) (dst : Reg) (v : Byte),
    encode (.mvi dst v) = [0b00#2 ++ dst.code ++ 0b110#3, v] ∧
    (clocks (.mvi dst v) s = if dst = .m then 10 else 7) ∧
    ∃ t, exec (.mvi dst v) s = .next t ∧
      (dst ≠ .m → t = { s with regs := t.regs } ∧ KeepsMemory s t ∧ (readReg dst t).1 = v ∧
        ∀ q, q ≠ .m → q ≠ dst → (readReg q t).1 = (readReg q s).1) ∧
      (dst = .m → Stored s t [(s.hl, v)])

/-- `LXI rp,B3B2`: the 16-bit immediate, high byte in the first-named register. -/
def Obligations.LxiLoads : Prop :=
  ∀ (s : State) (p : RegPair) (lo hi : Byte),
    encode (.lxi p (hi ++ lo)) = [0b00#2 ++ p.code ++ 0b0001#4, lo, hi] ∧ clocks (.lxi p (hi ++ lo)) s = 10 ∧
    ∃ t, exec (.lxi p (hi ++ lo)) s = .next t ∧ KeepsMemory s t ∧
      t = match p with
        | .bc => { s with regs := { s.regs with b := hi, c := lo } }
        | .de => { s with regs := { s.regs with d := hi, e := lo } }
        | .hl => { s with regs := { s.regs with h := hi, l := lo } }
        | .sp => { s with sp := hi ++ lo }

/-- `LDA` and `LDAX`: the memory byte at the address in `A`. -/
def Obligations.AccumulatorLoads : Prop :=
  ∀ (s : State) (addr : Word) (p : IndexPair),
    (encode (.lda addr) = [0x3A#8, loByte addr, hiByte addr] ∧ clocks (.lda addr) s = 13 ∧
      ∃ t, exec (.lda addr) s = .next t ∧ KeepsMemory s t ∧
        t = { s with regs := { s.regs with a := (s.memRead addr).1 }, env := (s.memRead addr).2.env }) ∧
    (encode (.ldax p) = [0b000#3 ++ p.code ++ 0b1010#4] ∧ clocks (.ldax p) s = 7 ∧
      ∃ t, exec (.ldax p) s = .next t ∧ KeepsMemory s t ∧
        let x := match p with | .bc => s.bc | .de => s.de
        t = { s with regs := { s.regs with a := (s.memRead x).1 }, env := (s.memRead x).2.env })

/-- `STA` and `STAX`: `A` stored at the address. -/
def Obligations.AccumulatorStores : Prop :=
  ∀ (s : State) (addr : Word) (p : IndexPair),
    (encode (.sta addr) = [0x32#8, loByte addr, hiByte addr] ∧ clocks (.sta addr) s = 13 ∧
      ∃ t, exec (.sta addr) s = .next t ∧ Stored s t [(addr, s.regs.a)]) ∧
    (encode (.stax p) = [0b000#3 ++ p.code ++ 0b0010#4] ∧ clocks (.stax p) s = 7 ∧
      ∃ t, exec (.stax p) s = .next t ∧ Stored s t [(match p with | .bc => s.bc | .de => s.de, s.regs.a)])

/-- `LHLD`: `L` from the address, then `H` from the next one. -/
def Obligations.LhldLoads : Prop :=
  ∀ (s : State) (addr : Word),
    encode (.lhld addr) = [0x2A#8, loByte addr, hiByte addr] ∧ clocks (.lhld addr) s = 16 ∧
    ∃ t, exec (.lhld addr) s = .next t ∧ KeepsMemory s t ∧
      let lo := s.memRead addr
      let hi := lo.2.memRead (addr + 1#16)
      t = { s with regs := { s.regs with h := hi.1, l := lo.1 }, env := hi.2.env }

/-- `SHLD`: `L` to the address, then `H` to the next one. -/
def Obligations.ShldStores : Prop :=
  ∀ (s : State) (addr : Word),
    encode (.shld addr) = [0x22#8, loByte addr, hiByte addr] ∧ clocks (.shld addr) s = 16 ∧
    ∃ t, exec (.shld addr) s = .next t ∧ Stored s t [(addr, s.regs.l), (addr + 1#16, s.regs.h)]

/-- `XCHG`: `H` and `D`, `L` and `E` change places; two of them restore the state. -/
def Obligations.XchgSwaps : Prop :=
  ∀ s : State, encode .xchg = [0xEB#8] ∧ clocks .xchg s = 4 ∧
    ∃ t, exec .xchg s = .next t ∧ KeepsMemory s t ∧ exec .xchg t = .next s ∧
      t = { s with regs := { s.regs with h := s.regs.d, l := s.regs.e, d := s.regs.h, e := s.regs.l } }

/-! ### Arithmetic -/

/-- `ADD`, `ADI`, `ADC`, `ACI`: `A`, `S`, `Z`, `P`, `CY` from the sum, `AC` as `AC_ADD` gives it. -/
def Obligations.Additions : Prop :=
  ∀ (s : State) (r : Reg) (v : Byte),
    (encode (.add r) = [0b10000#5 ++ r.code] ∧ (clocks (.add r) s = if r = .m then 7 else 4) ∧
      ∃ t, exec (.add r) s = .next t ∧ AccumulatorOnly s t (readReg r s).2.env ∧ SumIn s t (readReg r s).1 false) ∧
    (encode (.adi v) = [0xC6#8, v] ∧ clocks (.adi v) s = 7 ∧
      ∃ t, exec (.adi v) s = .next t ∧ AccumulatorOnly s t s.env ∧ SumIn s t v false) ∧
    (encode (.adc r) = [0b10001#5 ++ r.code] ∧ (clocks (.adc r) s = if r = .m then 7 else 4) ∧
      ∃ t, exec (.adc r) s = .next t ∧ AccumulatorOnly s t (readReg r s).2.env ∧
        SumIn s t (readReg r s).1 s.flags.cy) ∧
    (encode (.aci v) = [0xCE#8, v] ∧ clocks (.aci v) s = 7 ∧
      ∃ t, exec (.aci v) s = .next t ∧ AccumulatorOnly s t s.env ∧ SumIn s t v s.flags.cy)

/-- `SUB`, `SUI`, `SBB`, `SBI`: `A`, `S`, `Z`, `P` from the difference, `CY` the borrow (which the spec takes from general
knowledge: 41_arithmetic.md section 1), `AC` as `AC_SUB` gives it. -/
def Obligations.Subtractions : Prop :=
  ∀ (s : State) (r : Reg) (v : Byte),
    (encode (.sub r) = [0b10010#5 ++ r.code] ∧ (clocks (.sub r) s = if r = .m then 7 else 4) ∧
      ∃ t, exec (.sub r) s = .next t ∧ AccumulatorOnly s t (readReg r s).2.env ∧
        DifferenceIn s t t.regs.a (readReg r s).1 false) ∧
    (encode (.sui v) = [0xD6#8, v] ∧ clocks (.sui v) s = 7 ∧
      ∃ t, exec (.sui v) s = .next t ∧ AccumulatorOnly s t s.env ∧ DifferenceIn s t t.regs.a v false) ∧
    (encode (.sbb r) = [0b10011#5 ++ r.code] ∧ (clocks (.sbb r) s = if r = .m then 7 else 4) ∧
      ∃ t, exec (.sbb r) s = .next t ∧ AccumulatorOnly s t (readReg r s).2.env ∧
        DifferenceIn s t t.regs.a (readReg r s).1 s.flags.cy) ∧
    (encode (.sbi v) = [0xDE#8, v] ∧ clocks (.sbi v) s = 7 ∧
      ∃ t, exec (.sbi v) s = .next t ∧ AccumulatorOnly s t s.env ∧ DifferenceIn s t t.regs.a v s.flags.cy)

/-- `INR` and `DCR`: the operand goes up or down by one modulo 256, in a register or in the memory byte at `HL`; `S`, `Z`,
`P` from the result, `AC` as the parameter gives it, `CY` kept. -/
def Obligations.IncrementsAndDecrements : Prop :=
  ∀ (s : State) (r : Reg),
    let v := (readReg r s).1
    let writes (t : State) (res : Byte) : Prop :=
      ResultFlags res t.flags ∧ t.flags.cy = s.flags.cy ∧
      (r ≠ .m → t = { s with regs := t.regs, flags := t.flags } ∧ KeepsMemory s t ∧ (readReg r t).1 = res ∧
        ∀ q, q ≠ .m → q ≠ r → (readReg q t).1 = (readReg q s).1) ∧
      (r = .m → Stored { (readReg r s).2 with flags := t.flags } t [(s.hl, res)])
    (encode (.inr r) = [0b00#2 ++ r.code ++ 0b100#3] ∧
      (clocks (.inr r) s = if r = .m then 10 else perVariant s.cfg.variant 5 4) ∧
      ∃ t res, exec (.inr r) s = .next t ∧ res.toNat = (v.toNat + 1) % 256 ∧
        t.flags.ac = acAdd s.cfg v 1#8 false ∧ writes t res) ∧
    (encode (.dcr r) = [0b00#2 ++ r.code ++ 0b101#3] ∧
      (clocks (.dcr r) s = if r = .m then 10 else perVariant s.cfg.variant 5 4) ∧
      ∃ t res, exec (.dcr r) s = .next t ∧ res.toNat = (v.toNat + 255) % 256 ∧
        t.flags.ac = acSub s.cfg v 1#8 false ∧ writes t res)

/-- `INX` and `DCX`: the pair or `SP` up or down by one modulo 65536, no flag. -/
def Obligations.PairSteps : Prop :=
  ∀ (s : State) (p : RegPair),
    let others (t : State) : Prop :=
      t = { s with regs := t.regs, sp := t.sp } ∧ t.regs.a = s.regs.a ∧ KeepsMemory s t ∧
      ∀ q, q ≠ p → readPair q t = readPair q s
    (encode (.inx p) = [0b00#2 ++ p.code ++ 0b0011#4] ∧ clocks (.inx p) s = perVariant s.cfg.variant 5 6 ∧
      ∃ t, exec (.inx p) s = .next t ∧ others t ∧
        (readPair p t).toNat = ((readPair p s).toNat + 1) % 65536) ∧
    (encode (.dcx p) = [0b00#2 ++ p.code ++ 0b1011#4] ∧ clocks (.dcx p) s = perVariant s.cfg.variant 5 6 ∧
      ∃ t, exec (.dcx p) s = .next t ∧ others t ∧
        (readPair p t).toNat = ((readPair p s).toNat + 65535) % 65536)

/-- `DAD`: `HL` plus the pair modulo 65536, `CY` the carry out of bit 15 (which the spec derives), no other flag. -/
def Obligations.DadAdds : Prop :=
  ∀ (s : State) (p : RegPair),
    encode (.dad p) = [0b00#2 ++ p.code ++ 0b1001#4] ∧ clocks (.dad p) s = 10 ∧
    ∃ t, exec (.dad p) s = .next t ∧ KeepsMemory s t ∧
      t = { s with
        regs := { s.regs with h := t.regs.h, l := t.regs.l }, flags := { s.flags with cy := t.flags.cy } } ∧
      256 * t.regs.h.toNat + t.regs.l.toNat = (s.hl.toNat + (readPair p s).toNat) % 65536 ∧
      (t.flags.cy = true ↔ 65536 ≤ s.hl.toNat + (readPair p s).toNat)

/-- `DAA`: `A`, `CY`, `AC` as the parameter `DAA_FN` gives them for `A`, `AC`, `CY`; `S`, `Z`, `P` from the new `A`. -/
def Obligations.DaaAdjusts : Prop :=
  ∀ s : State, encode .daa = [0x27#8] ∧ clocks .daa s = 4 ∧
    ∃ t, exec .daa s = .next t ∧ AccumulatorOnly s t s.env ∧
      let o := daaFn s.cfg s.regs.a s.flags.ac s.flags.cy
      t.regs.a = o.res ∧ t.flags.cy = o.cy ∧ t.flags.ac = o.ac ∧ ResultFlags o.res t.flags

/-- `DAA` after an addition of two packed-BCD bytes and a carry gives the packed-BCD sum modulo 100 and its decimal carry
in `CY`, with the default `DAA_FN` or with a free one, where `AC_ADD` is the carry out of bit 3 (the carry is the spec's
own reading: 41_arithmetic.md section 5; that `AC_ADD` must be that carry is log 6). -/
def Obligations.DaaGivesDecimalSum : Prop :=
  ∀ (s : State) (i : Instr) (r : Reg) (v : Byte) (c : Bool) (d1 d0 e1 e0 : Nat),
    s.cfg.acAdd = .standard →
    d1 < 10 → d0 < 10 → e1 < 10 → e0 < 10 → s.regs.a.toNat = 16 * d1 + d0 → v.toNat = 16 * e1 + e0 →
    (i = .adi v ∧ c = false ∨ i = .aci v ∧ c = s.flags.cy ∨
      i = .add r ∧ c = false ∧ (readReg r s).1 = v ∨ i = .adc r ∧ c = s.flags.cy ∧ (readReg r s).1 = v) →
    ∃ t u, exec i s = .next t ∧ exec .daa t = .next u ∧
      let n := 10 * d1 + d0 + (10 * e1 + e0) + c.toNat
      u.regs.a.toNat = 16 * (n % 100 / 10) + n % 10 ∧ (u.flags.cy = true ↔ 100 ≤ n)

/-- The defaults of `AC_ADD`, `AC_SUB`, `AC_ANA` and `DAA_FN` (which the spec takes from general knowledge). -/
def Obligations.DefaultParameterFunctions : Prop :=
  ∀ (cfg : Config.Params) (a b : Byte) (c ac : Bool),
    (cfg.acAdd = .standard →
      (acAdd cfg a b c = true ↔ 16 ≤ a.toNat % 16 + b.toNat % 16 + c.toNat)) ∧
    (cfg.acSub = .standard →
      (acSub cfg a b c = true ↔ b.toNat % 16 + c.toNat ≤ a.toNat % 16)) ∧
    (cfg.acAna = .standard → cfg.variant = .i8080 → acAna cfg a b = (a.getLsbD 3 || b.getLsbD 3)) ∧
    (cfg.acAna = .standard → cfg.variant = .i8085 → acAna cfg a b = true) ∧
    (cfg.daa = .standard → cfg.acAdd = .standard →
      let low := if ac = true ∨ 9 < a.toNat % 16 then 6 else 0
      let top := c = true ∨ 9 < a.toNat / 16 ∨ 9 ≤ a.toNat / 16 ∧ 9 < a.toNat % 16
      let high := if c = true ∨ 9 < a.toNat / 16 ∨ 9 ≤ a.toNat / 16 ∧ 9 < a.toNat % 16 then 96 else 0
      (daaFn cfg a ac c).res.toNat = (a.toNat + low + high) % 256 ∧ ((daaFn cfg a ac c).cy = true ↔ top) ∧
      ((daaFn cfg a ac c).ac = true ↔ 16 ≤ a.toNat % 16 + low))

/-! ### Logic -/

/-- `ANA`, `ANI`, `XRA`, `XRI`, `ORA`, `ORI`: every bit of `A` from the two bits in its place; `S`, `Z`, `P` from the
result, `CY` 0, `AC` 0 but for `ANA`, where the parameter `AC_ANA` gives it. -/
def Obligations.BitwiseOperations : Prop :=
  ∀ (s : State) (r : Reg) (v : Byte),
    let a := s.regs.a
    let m := (readReg r s).1
    (encode (.ana r) = [0b10100#5 ++ r.code] ∧ (clocks (.ana r) s = if r = .m then 7 else 4) ∧
      ∃ t, exec (.ana r) s = .next t ∧ AccumulatorOnly s t (readReg r s).2.env ∧
        BitwiseIn t (fun i => a.getLsbD i && m.getLsbD i) (acAna s.cfg a m)) ∧
    (encode (.ani v) = [0xE6#8, v] ∧ clocks (.ani v) s = 7 ∧
      ∃ t, exec (.ani v) s = .next t ∧ AccumulatorOnly s t s.env ∧
        BitwiseIn t (fun i => a.getLsbD i && v.getLsbD i) false) ∧
    (encode (.xra r) = [0b10101#5 ++ r.code] ∧ (clocks (.xra r) s = if r = .m then 7 else 4) ∧
      ∃ t, exec (.xra r) s = .next t ∧ AccumulatorOnly s t (readReg r s).2.env ∧
        BitwiseIn t (fun i => xor (a.getLsbD i) (m.getLsbD i)) false) ∧
    (encode (.xri v) = [0xEE#8, v] ∧ clocks (.xri v) s = 7 ∧
      ∃ t, exec (.xri v) s = .next t ∧ AccumulatorOnly s t s.env ∧
        BitwiseIn t (fun i => xor (a.getLsbD i) (v.getLsbD i)) false) ∧
    (encode (.ora r) = [0b10110#5 ++ r.code] ∧ (clocks (.ora r) s = if r = .m then 7 else 4) ∧
      ∃ t, exec (.ora r) s = .next t ∧ AccumulatorOnly s t (readReg r s).2.env ∧
        BitwiseIn t (fun i => a.getLsbD i || m.getLsbD i) false) ∧
    (encode (.ori v) = [0xF6#8, v] ∧ clocks (.ori v) s = 7 ∧
      ∃ t, exec (.ori v) s = .next t ∧ AccumulatorOnly s t s.env ∧
        BitwiseIn t (fun i => a.getLsbD i || v.getLsbD i) false)

/-- `CMP` and `CPI`: the flags of the difference, nothing else; `Z` says equal and `CY` says below (the borrow, which the
spec takes from general knowledge: 41_arithmetic.md section 1). -/
def Obligations.Compares : Prop :=
  ∀ (s : State) (r : Reg) (v : Byte),
    (encode (.cmp r) = [0b10111#5 ++ r.code] ∧ (clocks (.cmp r) s = if r = .m then 7 else 4) ∧
      ∃ t res, exec (.cmp r) s = .next t ∧ t = { s with flags := t.flags, env := (readReg r s).2.env } ∧
        KeepsMemory s t ∧ DifferenceIn s t res (readReg r s).1 false ∧
        (t.flags.z = true ↔ s.regs.a = (readReg r s).1) ∧
        (t.flags.cy = true ↔ s.regs.a.toNat < (readReg r s).1.toNat)) ∧
    (encode (.cpi v) = [0xFE#8, v] ∧ clocks (.cpi v) s = 7 ∧
      ∃ t res, exec (.cpi v) s = .next t ∧ t = { s with flags := t.flags } ∧ KeepsMemory s t ∧
        DifferenceIn s t res v false ∧ (t.flags.z = true ↔ s.regs.a = v) ∧
        (t.flags.cy = true ↔ s.regs.a.toNat < v.toNat))

/-- `RLC`, `RRC`, `RAL`, `RAR`: `A` rotated by one, alone or with `CY` as ninth bit; `CY` is the bit that leaves, and no
other flag changes. -/
def Obligations.Rotates : Prop :=
  ∀ s : State,
    let a := s.regs.a.toNat
    let only (t : State) : Prop := AccumulatorOnly s t s.env ∧ t.flags = { s.flags with cy := t.flags.cy }
    (encode .rlc = [0x07#8] ∧ clocks .rlc s = 4 ∧
      ∃ t, exec .rlc s = .next t ∧ only t ∧ t.regs.a.toNat = 2 * a % 256 + a / 128 ∧
        (t.flags.cy = true ↔ 128 ≤ a)) ∧
    (encode .rrc = [0x0F#8] ∧ clocks .rrc s = 4 ∧
      ∃ t, exec .rrc s = .next t ∧ only t ∧ t.regs.a.toNat = a / 2 + 128 * (a % 2) ∧
        (t.flags.cy = true ↔ a % 2 = 1)) ∧
    (encode .ral = [0x17#8] ∧ clocks .ral s = 4 ∧
      ∃ t, exec .ral s = .next t ∧ only t ∧ t.regs.a.toNat = 2 * a % 256 + s.flags.cy.toNat ∧
        (t.flags.cy = true ↔ 128 ≤ a)) ∧
    (encode .rar = [0x1F#8] ∧ clocks .rar s = 4 ∧
      ∃ t, exec .rar s = .next t ∧ only t ∧ t.regs.a.toNat = a / 2 + 128 * s.flags.cy.toNat ∧
        (t.flags.cy = true ↔ a % 2 = 1))

/-- `CMA` complements `A` and no flag; `CMC` complements `CY`, `STC` sets it, and nothing else changes. -/
def Obligations.ComplementsAndCarry : Prop :=
  ∀ s : State,
    (encode .cma = [0x2F#8] ∧ clocks .cma s = 4 ∧
      ∃ t, exec .cma s = .next t ∧ KeepsMemory s t ∧ t = { s with regs := { s.regs with a := t.regs.a } } ∧
        t.regs.a.toNat = 255 - s.regs.a.toNat) ∧
    (encode .cmc = [0x3F#8] ∧ clocks .cmc s = 4 ∧
      ∃ t, exec .cmc s = .next t ∧ KeepsMemory s t ∧ t = { s with flags := { s.flags with cy := !s.flags.cy } }) ∧
    (encode .stc = [0x37#8] ∧ clocks .stc s = 4 ∧
      ∃ t, exec .stc s = .next t ∧ KeepsMemory s t ∧ t = { s with flags := { s.flags with cy := true } })

/-! ### Control transfer -/

/-- `JMP`, `J…`, `PCHL`, with the conditions of Table 3: `PC` is the target, or past the instruction. -/
def Obligations.Jumps : Prop :=
  ∀ (s : State) (w : Word) (cond : Cond),
    (s.flags.holds cond = true ↔ match cond with
      | .nz => s.flags.z = false | .z => s.flags.z = true | .nc => s.flags.cy = false | .c => s.flags.cy = true
      | .po => s.flags.p = false | .pe => s.flags.p = true | .p => s.flags.s = false | .m => s.flags.s = true) ∧
    (encode (.jmp w) = [0xC3#8, loByte w, hiByte w] ∧ clocks (.jmp w) s = 10 ∧
      ∃ t, exec (.jmp w) s = .next t ∧ t = { s with pc := w } ∧ KeepsMemory s t) ∧
    (encode (.jcc cond w) = [0b11#2 ++ cond.code ++ 0b010#3, loByte w, hiByte w] ∧
      (clocks (.jcc cond w) s = if s.flags.holds cond then 10 else perVariant s.cfg.variant 10 7) ∧
      ∃ t, exec (.jcc cond w) s = .next t ∧ KeepsMemory s t ∧
        t = { s with pc := if s.flags.holds cond then w else s.pc }) ∧
    (encode .pchl = [0xE9#8] ∧ clocks .pchl s = perVariant s.cfg.variant 5 6 ∧
      ∃ t, exec .pchl s = .next t ∧ KeepsMemory s t ∧ t = { s with pc := t.pc } ∧
        t.pc.toNat = 256 * s.regs.h.toNat + s.regs.l.toNat)

/-- `CALL`, `C…`, `RST`: the address of the next instruction pushed, high byte first, and `PC` at the target; a `C…` that
is not taken changes nothing. -/
def Obligations.Calls : Prop :=
  ∀ (s : State) (w : Word) (cond : Cond) (n : BitVec 3),
    let calls (t : State) (target : Word) : Prop :=
      Stored { s with pc := target, sp := s.sp - 2#16 } t
        [(s.sp - 1#16, hiByte s.pc), (s.sp - 2#16, loByte s.pc)]
    (encode (.call w) = [0xCD#8, loByte w, hiByte w] ∧ clocks (.call w) s = perVariant s.cfg.variant 17 18 ∧
      ∃ t, exec (.call w) s = .next t ∧ calls t w) ∧
    (encode (.ccc cond w) = [0b11#2 ++ cond.code ++ 0b100#3, loByte w, hiByte w] ∧
      (clocks (.ccc cond w) s =
        if s.flags.holds cond then perVariant s.cfg.variant 17 18 else perVariant s.cfg.variant 11 9) ∧
      ∃ t, exec (.ccc cond w) s = .next t ∧ if s.flags.holds cond then calls t w else t = s) ∧
    (encode (.rst n) = [0b11#2 ++ n ++ 0b111#3] ∧ clocks (.rst n) s = 11 ∧
      ∃ t, exec (.rst n) s = .next t ∧ calls t t.pc ∧ t.pc.toNat = 8 * n.toNat)

/-- `RET` and `R…`: `PC` from the two bytes at `SP`, low byte first, `SP` up by 2, nothing else restored; an `R…` that is
not taken changes nothing. -/
def Obligations.Returns : Prop :=
  ∀ (s : State) (cond : Cond),
    let lo := s.memRead s.sp
    let hi := lo.2.memRead (s.sp + 1#16)
    let returns (t : State) : Prop :=
      t = { s with pc := t.pc, sp := s.sp + 2#16, env := hi.2.env } ∧ KeepsMemory s t ∧
      t.pc.toNat = 256 * hi.1.toNat + lo.1.toNat
    (encode .ret = [0xC9#8] ∧ clocks .ret s = 10 ∧ ∃ t, exec .ret s = .next t ∧ returns t) ∧
    (encode (.rcc cond) = [0b11#2 ++ cond.code ++ 0b000#3] ∧
      (clocks (.rcc cond) s =
        if s.flags.holds cond then perVariant s.cfg.variant 11 12 else perVariant s.cfg.variant 5 6) ∧
      ∃ t, exec (.rcc cond) s = .next t ∧ if s.flags.holds cond then returns t else t = s)

/-! ### Stack -/

/-- `PUSH`: the high byte at `SP-1`, then the low byte at `SP-2`, and `SP` down by 2; for `PSW` the low byte is the flag
byte, whose bits 5, 3, 1 are given by `F_X_BITS` or of which nothing is known. -/
def Obligations.Pushes : Prop :=
  ∀ (s : State) (p : StackPair),
    encode (.push p) = [0b11#2 ++ p.code ++ 0b0101#4] ∧
    (clocks (.push p) s = if p = .psw then 12 else perVariant s.cfg.variant 11 13) ∧
    ∃ t, exec (.push p) s = .next t ∧
      match p with
      | .bc => Stored { s with sp := s.sp - 2#16 } t [(s.sp - 1#16, s.regs.b), (s.sp - 2#16, s.regs.c)]
      | .de => Stored { s with sp := s.sp - 2#16 } t [(s.sp - 1#16, s.regs.d), (s.sp - 2#16, s.regs.e)]
      | .hl => Stored { s with sp := s.sp - 2#16 } t [(s.sp - 1#16, s.regs.h), (s.sp - 2#16, s.regs.l)]
      | .psw => ∃ f : Byte, ∃ x5 x3 x1 : Bool,
        f.toNat = 128 * s.flags.s.toNat + 64 * s.flags.z.toNat + 32 * x5.toNat + 16 * s.flags.ac.toNat +
          8 * x3.toNat + 4 * s.flags.p.toNat + 2 * x1.toNat + s.flags.cy.toNat ∧
        (∀ y5 y3 y1, s.cfg.fxBits = .fixed y5 y3 y1 →
          x5 = y5 ∧ x3 = y3 ∧ x1 = y1 ∧ t.env.draws = s.env.draws) ∧
        Stored { s with sp := s.sp - 2#16, env := { s.env with draws := t.env.draws } } t
          [(s.sp - 1#16, s.regs.a), (s.sp - 2#16, f)]

/-- `POP`: the low byte from `SP`, then the high byte from `SP+1`, and `SP` up by 2; `POP PSW` loads the five flags. -/
def Obligations.Pops : Prop :=
  ∀ (s : State) (p : StackPair),
    let lo := s.memRead s.sp
    let hi := lo.2.memRead (s.sp + 1#16)
    encode (.pop p) = [0b11#2 ++ p.code ++ 0b0001#4] ∧ clocks (.pop p) s = 10 ∧
    ∃ t, exec (.pop p) s = .next t ∧ KeepsMemory s t ∧
      t = { s with
        sp := s.sp + 2#16
        env := hi.2.env
        regs := match p with
          | .bc => { s.regs with b := hi.1, c := lo.1 }
          | .de => { s.regs with d := hi.1, e := lo.1 }
          | .hl => { s.regs with h := hi.1, l := lo.1 }
          | .psw => { s.regs with a := hi.1 }
        flags := match p with
          | .psw => { s := lo.1.getLsbD 7, z := lo.1.getLsbD 6, ac := lo.1.getLsbD 4, p := lo.1.getLsbD 2,
                      cy := lo.1.getLsbD 0 }
          | .bc | .de | .hl => s.flags }

/-- The stack laws, where RAM stands below `SP`: `PUSH rp` then `POP rq` copies `rp` into `rq`, `PUSH PSW` then `POP PSW`
restores `A` and the flags, a call then `RET` comes back past the call; each restores `SP`, and only the two bytes below
it may differ. -/
def Obligations.StackLaws : Prop :=
  ∀ (s : State), s.kindAt (s.sp - 1#16) = .ram → s.kindAt (s.sp - 2#16) = .ram →
    let back (u : State) : Prop :=
      u.sp = s.sp ∧ ∀ x : Word, x ≠ s.sp - 1#16 → x ≠ s.sp - 2#16 → u.byteAt x = s.byteAt x
    (∀ p q : StackPair, p ≠ .psw → q ≠ .psw → ∃ t u, exec (.push p) s = .next t ∧ exec (.pop q) t = .next u ∧ back u ∧
      let pair (z : State) (x : StackPair) : Byte × Byte := match x with
        | .bc => (z.regs.b, z.regs.c) | .de => (z.regs.d, z.regs.e)
        | .hl => (z.regs.h, z.regs.l) | .psw => (z.regs.a, z.regs.a)
      pair u q = pair s p ∧ (∀ x, x ≠ q → pair u x = pair s x) ∧ u.flags = s.flags) ∧
    (∃ t u, exec (.push .psw) s = .next t ∧ exec (.pop .psw) t = .next u ∧ back u ∧
      u.regs = s.regs ∧ u.flags = s.flags) ∧
    (∀ w : Word, ∃ t u, exec (.call w) s = .next t ∧ exec .ret t = .next u ∧ back u ∧
      u.pc = s.pc ∧ u.regs = s.regs ∧ u.flags = s.flags)

/-- `XTHL`: both reads, then `H` to `SP+1`, then `L` to `SP` (the order of the writes is the spec's own choice, 44_stack.md
section on `XTHL`), `SP` kept. `SPHL`: `SP` from `HL`. -/
def Obligations.XthlAndSphl : Prop :=
  ∀ s : State,
    let lo := s.memRead s.sp
    let hi := lo.2.memRead (s.sp + 1#16)
    (encode .xthl = [0xE3#8] ∧ clocks .xthl s = perVariant s.cfg.variant 18 16 ∧
      ∃ t, exec .xthl s = .next t ∧
        Stored { s with regs := { s.regs with h := hi.1, l := lo.1 }, env := hi.2.env } t
          [(s.sp + 1#16, s.regs.h), (s.sp, s.regs.l)]) ∧
    (encode .sphl = [0xF9#8] ∧ clocks .sphl s = perVariant s.cfg.variant 5 6 ∧
      ∃ t, exec .sphl s = .next t ∧ KeepsMemory s t ∧ t = { s with sp := t.sp } ∧
        t.sp.toNat = 256 * s.regs.h.toNat + s.regs.l.toNat)

/-! ### Input and output -/

/-- `IN`: the port's answer in `A` and the event `In(p, byte)`. The answer depends on the port and on the position of the
`IN` in the run; where it is listed it is the first one listed for both (log 10). `OUT`: the event `Out(p, A)` and nothing
else. -/
def Obligations.InputAndOutput : Prop :=
  ∀ (s : State) (p : Byte),
    (encode (.inPort p) = [0xDB#8, p] ∧ clocks (.inPort p) s = 10 ∧
      ∃ t, exec (.inPort p) s = .next t ∧ KeepsMemory s t ∧
        t = { s with
          regs := { s.regs with a := t.regs.a }
          env := { s.env with
            inputs := s.env.inputs + 1
            history := s.env.history ++ [.input p t.regs.a] } } ∧
        t.regs.a = portAnswer s.cfg s.env.inputs p ∧
        ∀ x, s.cfg.ioIn.find? (fun y => y.position = s.env.inputs ∧ y.port = p) = some x → t.regs.a = x.value) ∧
    (encode (.outPort p) = [0xD3#8, p] ∧ clocks (.outPort p) s = 10 ∧
      ∃ t, exec (.outPort p) s = .next t ∧ KeepsMemory s t ∧
        t = { s with env := { s.env with history := s.env.history ++ [.output p s.regs.a] } })

/-! ### Interrupt control and other -/

/-- `EI` sets `INTE` and starts the delay `EI_DELAY` again, also while one runs; `DI` clears both, and with `DI_OWN_END`
the sampling at its own end still sees `INTE` as it was if no delay ran (log 14). -/
def Obligations.EnableAndDisable : Prop :=
  ∀ s : State,
    (encode .ei = [0xFB#8] ∧ clocks .ei s = 4 ∧
      ∃ t, exec .ei s = .next t ∧ KeepsMemory s t ∧
        t = { s with inte := true, eiPending := match s.cfg.eiDelay with | .one => 1 | .two => 2 }) ∧
    (encode .di = [0xF3#8] ∧ clocks .di s = 4 ∧
      ∃ t, exec .di s = .next t ∧ KeepsMemory s t ∧
        t = { s with inte := false, eiPending := 0, inteLate := t.inteLate } ∧
        (t.inteLate = true ↔ s.cfg.diOwnEnd = true ∧ s.inte = true ∧ s.eiPending = 0))

/-- `HLT` enters the halted state with `PC` past itself, and the next step then fetches nothing and changes no register,
flag or memory location (46_interrupt_and_other.md R232), nor `PC` unless a RESET is shown; `NOP` does nothing (R233). -/
def Obligations.HaltAndNop : Prop :=
  ∀ s : State,
    (encode .hlt = [0x76#8] ∧ clocks .hlt s = perVariant s.cfg.variant 7 5 ∧
      ∃ t, exec .hlt s = .next t ∧ t = { s with halted := true } ∧ KeepsMemory s t ∧
        (s.accepted = none → ∃ u, step t = .next u ∧ u.regs = s.regs ∧ u.flags = s.flags ∧ u.sp = s.sp ∧
          KeepsMemory s u ∧ (s.nextSlot.reset = false →
            u.pc = s.pc ∧ u.halted = true ∧ u.env.history = s.env.history ∧ u.env.draws = s.env.draws))) ∧
    (encode .nop = [0x00#8] ∧ clocks .nop s = 4 ∧ ∃ t, exec .nop s = .next t ∧ t = s)

/-- `SIM` and `RIM` on the I8085, with the field layout that the spec takes from general knowledge (47_i8085_extra.md): the
masks loaded if bit 3 has the level `SIM_MSE_LEVEL`, the RST 7.5 request cleared by bit 4, `SOD` loaded from bit 7 if
bit 6 is set, a change of it an event; `RIM` reads the masks, `INTE`, the requests and `SID` (log 11, 12). -/
def Obligations.SimAndRim : Prop :=
  ∀ s : State, s.cfg.variant = .i8085 →
    let a := s.regs.a
    (encode .sim = [0x30#8] ∧ clocks .sim s = 4 ∧
      ∃ t, exec .sim s = .next t ∧ KeepsMemory s t ∧
        t = { s with
          masks := t.masks
          env := { s.env with
            history := s.env.history ++ if t.masks.sod = s.masks.sod then [] else [.serial t.masks.sod] } } ∧
        (a.getLsbD 3 = s.cfg.simMseLevel → t.masks.m55 = a.getLsbD 0 ∧ t.masks.m65 = a.getLsbD 1 ∧
          t.masks.m75 = a.getLsbD 2) ∧
        (a.getLsbD 3 ≠ s.cfg.simMseLevel → t.masks.m55 = s.masks.m55 ∧ t.masks.m65 = s.masks.m65 ∧
          t.masks.m75 = s.masks.m75) ∧
        (t.masks.r75 = true ↔ s.masks.r75 = true ∧ a.getLsbD 4 = false) ∧
        (t.masks.sod = if a.getLsbD 6 then a.getLsbD 7 else s.masks.sod)) ∧
    (encode .rim = [0x20#8] ∧ clocks .rim s = 4 ∧
      ∃ t, exec .rim s = .next t ∧ KeepsMemory s t ∧
        t = { s with
          regs := { s.regs with a := t.regs.a }
          env := { s.env with draws := if s.env.slots = [] then s.env.draws + 1 else s.env.draws } } ∧
        t.regs.a.getLsbD 0 = s.masks.m55 ∧ t.regs.a.getLsbD 1 = s.masks.m65 ∧ t.regs.a.getLsbD 2 = s.masks.m75 ∧
        t.regs.a.getLsbD 3 = s.inte ∧ t.regs.a.getLsbD 6 = s.masks.r75 ∧
        t.regs.a.getLsbD 4 = s.nextSlot.i55 ∧ t.regs.a.getLsbD 5 = s.nextSlot.i65 ∧
        (s.env.slots ≠ [] → t.regs.a.getLsbD 7 = s.nextSlot.sid))

/-- The unused opcodes: on the I8080 under `Alias` they act as `NOP`, `JMP`, `RET`, `CALL` (which the spec takes from
general knowledge); under `Fault`, and on the I8085 under either policy (log 8: `Alias` is offered on the I8080 only), they
fault. What the terms `SIM` and `RIM` are on the I8080 (the unused opcodes `30h` and `20h`) and `unused20` and `unused30`
on the I8085, where no bytes decode to them, is log 27. -/
def Obligations.UnusedOpcodesAct : Prop :=
  ∀ (s : State) (w : Word) (i : Instr) (b : Byte),
    (i, b) ∈ [(.unused08, 0x08#8), (.unused10, 0x10#8), (.unused18, 0x18#8), (.unused20, 0x20#8), (.unused28, 0x28#8),
      (.unused30, 0x30#8), (.unused38, 0x38#8), (.unusedCB w, 0xCB#8), (.unusedD9, 0xD9#8), (.unusedDD w, 0xDD#8),
      (.unusedED w, 0xED#8), (.unusedFD w, 0xFD#8)] →
    (encode i).head? = some b ∧
    (s.cfg.illegal = .fault ∨ s.cfg.variant = .i8085 → exec i s = .fault (.illegalOpcode b)) ∧
    (s.cfg.illegal = .aliased → s.cfg.variant = .i8080 →
      ∃ t, exec i s = .next t ∧
        match i with
        | .unusedCB _ => exec (.jmp w) s = .next t ∧ t.pc = w
        | .unusedD9 => exec .ret s = .next t ∧ t.sp = s.sp + 2#16
        | .unusedDD _ | .unusedED _ | .unusedFD _ => exec (.call w) s = .next t ∧ t.pc = w ∧ t.sp = s.sp - 2#16
        | _ => t = s) ∧
    (s.cfg.variant = .i8080 → exec .sim s = exec .unused30 s ∧ exec .rim s = exec .unused20 s)
end

