-- ==== Sys2Proof/Laws/Decode.lean ====
section
/-! SUPPORT. The decoder is total on three bytes. -/

namespace Sys2Proof

theorem opLength_cases (b : Byte) : opLength b = 1 ∨ opLength b = 2 ∨ opLength b = 3 := by
  revert b; decide

/-- Three bytes always decode: no opcode needs more. -/
theorem decode_three (v : Config.Variant) (b1 b2 b3 : Byte) : ∃ i rest, decode v [b1, b2, b3] = .ok (i, rest) := by
  rcases opLength_cases b1 with h | h | h <;> simp only [decode, h] <;> exact ⟨_, _, rfl⟩

end Sys2Proof
end

