-- ==== Sys2Proof/Laws/Memory.lean ====
section
/-! SUPPORT. A read after a write, and every memory operation keeps the canonical form. -/

namespace Sys2Proof.Machine

@[simp] theorem Memory.read_nil (a : Nat) : Memory.read [] a = Config.unlistedByte := rfl

theorem Memory.read_cons (cell : Host.Cell) (m : Memory) (a : Nat) :
    Memory.read (cell :: m) a = if cell.1 = a then cell.2 else Memory.read m a := rfl

/-- After an erase the address reads as an unlisted one, and every other address as before. -/
theorem Memory.read_erase (m : Memory) (a x : Nat) :
    (m.erase a).read x = if x = a then Config.unlistedByte else m.read x := by
  induction m with
  | nil => simp [Memory.erase]
  | cons cell rest ih =>
    have hcons : Memory.erase (cell :: rest) a =
        if cell.1 = a then Memory.erase rest a else cell :: Memory.erase rest a := by
      by_cases h : cell.1 = a <;> simp [Memory.erase, h]
    rw [hcons, Memory.read_cons]
    by_cases h : cell.1 = a
    · rw [if_pos h, ih]
      by_cases hx : x = a
      · simp [hx]
      · have : cell.1 ≠ x := fun e => hx (e.symm.trans h)
        simp [hx, this]
    · rw [if_neg h, Memory.read_cons, ih]
      by_cases hc : cell.1 = x
      · have : x ≠ a := fun e => h (hc.trans e)
        simp [hc, this]
      · simp [hc]

/-- An insert where the address has no cell: it reads as inserted, every other address as before. -/
theorem Memory.read_insert (m : Memory) (a : Nat) (v : Byte) (x : Nat)
    (h : ∀ cell ∈ m, cell.1 ≠ a) :
    (m.insert a v).read x = if x = a then v else m.read x := by
  induction m with
  | nil =>
    by_cases hx : x = a
    · simp [Memory.insert, Memory.read_cons, hx]
    · have : a ≠ x := fun e => hx e.symm
      simp [Memory.insert, Memory.read_cons, hx, this]
  | cons cell rest ih =>
    have hc : cell.1 ≠ a := h cell (by simp)
    have ih := ih (fun c hm => h c (by simp [hm]))
    simp only [Memory.insert]
    split
    · rw [Memory.read_cons]
      by_cases hx : x = a
      · simp [hx]
      · have : a ≠ x := fun e => hx e.symm
        simp [hx, this]
    · rw [Memory.read_cons, Memory.read_cons, ih]
      by_cases hx : x = a
      · have : cell.1 ≠ x := fun e => hc (e.trans hx)
        simp [hx, hc]
      · simp [hx]

theorem Memory.erase_no_cell (m : Memory) (a : Nat) : ∀ cell ∈ m.erase a, cell.1 ≠ a := by
  intro cell h
  simpa [Memory.erase] using (List.mem_filter.mp h).2

/-- A read after a write: the byte written at its address, the old byte everywhere else. -/
theorem Memory.read_write (m : Memory) (a : Nat) (v : Byte) (x : Nat) :
    (m.write a v).read x = if x = a then v else m.read x := by
  unfold Memory.write
  split
  next hv => rw [Memory.read_erase, hv]
  next =>
    rw [Memory.read_insert _ _ _ _ (m.erase_no_cell a), Memory.read_erase]
    by_cases hx : x = a <;> simp [hx]

theorem Memory.wfFrom_cons (lo : Nat) (cell : Host.Cell) (m : Memory) :
    Memory.wfFrom lo (cell :: m) = true ↔
      lo ≤ cell.1 ∧ cell.1 < memorySize ∧ cell.2 ≠ Config.unlistedByte ∧ Memory.wfFrom (cell.1 + 1) m = true := by
  simp [Memory.wfFrom, and_assoc]

theorem Memory.wfFrom_mono (lo lo' : Nat) (m : Memory) (h : lo' ≤ lo) (hm : m.wfFrom lo = true) :
    m.wfFrom lo' = true := by
  cases m with
  | nil => rfl
  | cons cell rest =>
    rw [Memory.wfFrom_cons] at hm ⊢
    exact ⟨h.trans hm.1, hm.2⟩

theorem Memory.wfFrom_erase (lo a : Nat) (m : Memory) (hm : m.wfFrom lo = true) :
    (m.erase a).wfFrom lo = true := by
  induction m generalizing lo with
  | nil => rfl
  | cons cell rest ih =>
    rw [Memory.wfFrom_cons] at hm
    have hr := ih _ hm.2.2.2
    by_cases h : cell.1 = a
    · have e : Memory.erase (cell :: rest) a = Memory.erase rest a := by simp [Memory.erase, h]
      rw [e]
      exact Memory.wfFrom_mono _ _ _ (by omega) hr
    · have e : Memory.erase (cell :: rest) a = cell :: Memory.erase rest a := by simp [Memory.erase, h]
      rw [e, Memory.wfFrom_cons]
      exact ⟨hm.1, hm.2.1, hm.2.2.1, hr⟩

theorem Memory.wfFrom_insert (lo a : Nat) (v : Byte) (m : Memory) (hlo : lo ≤ a) (ha : a < memorySize)
    (hv : v ≠ Config.unlistedByte) (hm : m.wfFrom lo = true) (hn : ∀ cell ∈ m, cell.1 ≠ a) :
    (m.insert a v).wfFrom lo = true := by
  induction m generalizing lo with
  | nil => simp [Memory.insert, Memory.wfFrom, hlo, ha, hv]
  | cons cell rest ih =>
    have hc : cell.1 ≠ a := hn cell (by simp)
    have h := (Memory.wfFrom_cons _ _ _).mp hm
    simp only [Memory.insert]
    split
    next hlt =>
      rw [Memory.wfFrom_cons]
      refine ⟨hlo, ha, hv, ?_⟩
      rw [Memory.wfFrom_cons]
      exact ⟨hlt, h.2⟩
    next hlt =>
      rw [Memory.wfFrom_cons]
      exact ⟨h.1, h.2.1, h.2.2.1, ih _ (by omega) h.2.2.2 (fun c hm => hn c (by simp [hm]))⟩

/-- A write keeps the canonical form. -/
theorem Memory.wf_write (m : Memory) (a : Nat) (v : Byte) (ha : a < memorySize) (hm : m.wf = true) :
    (m.write a v).wf = true := by
  unfold Memory.write
  split
  · exact Memory.wfFrom_erase _ _ _ hm
  next hv =>
    exact Memory.wfFrom_insert _ _ _ _ (Nat.zero_le _) ha hv (Memory.wfFrom_erase _ _ _ hm) (m.erase_no_cell a)

/-- An address fits the address space. -/
theorem word_lt_memorySize (a : Word) : a.toNat < memorySize := a.isLt

end Sys2Proof.Machine
end

