-- ==== Sys2Proof/Laws/State.lean ====
section
/-! SUPPORT. One lemma for each field and each field update of Machine/Ops.lean, and the updates built from them. -/

namespace Sys2Proof.Machine

variable (s : State)

@[simp] theorem State.setRegs_cfg (g : Regs) : (s.setRegs g).cfg = s.cfg := rfl
@[simp] theorem State.setRegs_regs (g : Regs) : (s.setRegs g).regs = g := rfl
@[simp] theorem State.setRegs_flags (g : Regs) : (s.setRegs g).flags = s.flags := rfl
@[simp] theorem State.setRegs_sp (g : Regs) : (s.setRegs g).sp = s.sp := rfl
@[simp] theorem State.setRegs_pc (g : Regs) : (s.setRegs g).pc = s.pc := rfl
@[simp] theorem State.setRegs_inte (g : Regs) : (s.setRegs g).inte = s.inte := rfl
@[simp] theorem State.setRegs_inteLate (g : Regs) : (s.setRegs g).inteLate = s.inteLate := rfl
@[simp] theorem State.setRegs_eiPending (g : Regs) : (s.setRegs g).eiPending = s.eiPending := rfl
@[simp] theorem State.setRegs_halted (g : Regs) : (s.setRegs g).halted = s.halted := rfl
@[simp] theorem State.setRegs_masks (g : Regs) : (s.setRegs g).masks = s.masks := rfl
@[simp] theorem State.setRegs_accepted (g : Regs) : (s.setRegs g).accepted = s.accepted := rfl
@[simp] theorem State.setRegs_mem (g : Regs) : (s.setRegs g).mem = s.mem := rfl
@[simp] theorem State.setRegs_env (g : Regs) : (s.setRegs g).env = s.env := rfl
@[simp] theorem State.setRegs_clk (g : Regs) : (s.setRegs g).clk = s.clk := rfl

@[simp] theorem State.setFlags_cfg (f : Flags) : (s.setFlags f).cfg = s.cfg := rfl
@[simp] theorem State.setFlags_regs (f : Flags) : (s.setFlags f).regs = s.regs := rfl
@[simp] theorem State.setFlags_flags (f : Flags) : (s.setFlags f).flags = f := rfl
@[simp] theorem State.setFlags_sp (f : Flags) : (s.setFlags f).sp = s.sp := rfl
@[simp] theorem State.setFlags_pc (f : Flags) : (s.setFlags f).pc = s.pc := rfl
@[simp] theorem State.setFlags_inte (f : Flags) : (s.setFlags f).inte = s.inte := rfl
@[simp] theorem State.setFlags_inteLate (f : Flags) : (s.setFlags f).inteLate = s.inteLate := rfl
@[simp] theorem State.setFlags_eiPending (f : Flags) : (s.setFlags f).eiPending = s.eiPending := rfl
@[simp] theorem State.setFlags_halted (f : Flags) : (s.setFlags f).halted = s.halted := rfl
@[simp] theorem State.setFlags_masks (f : Flags) : (s.setFlags f).masks = s.masks := rfl
@[simp] theorem State.setFlags_accepted (f : Flags) : (s.setFlags f).accepted = s.accepted := rfl
@[simp] theorem State.setFlags_mem (f : Flags) : (s.setFlags f).mem = s.mem := rfl
@[simp] theorem State.setFlags_env (f : Flags) : (s.setFlags f).env = s.env := rfl
@[simp] theorem State.setFlags_clk (f : Flags) : (s.setFlags f).clk = s.clk := rfl

@[simp] theorem State.setSp_cfg (w : Word) : (s.setSp w).cfg = s.cfg := rfl
@[simp] theorem State.setSp_regs (w : Word) : (s.setSp w).regs = s.regs := rfl
@[simp] theorem State.setSp_flags (w : Word) : (s.setSp w).flags = s.flags := rfl
@[simp] theorem State.setSp_sp (w : Word) : (s.setSp w).sp = w := rfl
@[simp] theorem State.setSp_pc (w : Word) : (s.setSp w).pc = s.pc := rfl
@[simp] theorem State.setSp_inte (w : Word) : (s.setSp w).inte = s.inte := rfl
@[simp] theorem State.setSp_inteLate (w : Word) : (s.setSp w).inteLate = s.inteLate := rfl
@[simp] theorem State.setSp_eiPending (w : Word) : (s.setSp w).eiPending = s.eiPending := rfl
@[simp] theorem State.setSp_halted (w : Word) : (s.setSp w).halted = s.halted := rfl
@[simp] theorem State.setSp_masks (w : Word) : (s.setSp w).masks = s.masks := rfl
@[simp] theorem State.setSp_accepted (w : Word) : (s.setSp w).accepted = s.accepted := rfl
@[simp] theorem State.setSp_mem (w : Word) : (s.setSp w).mem = s.mem := rfl
@[simp] theorem State.setSp_env (w : Word) : (s.setSp w).env = s.env := rfl
@[simp] theorem State.setSp_clk (w : Word) : (s.setSp w).clk = s.clk := rfl

@[simp] theorem State.setPc_cfg (w : Word) : (s.setPc w).cfg = s.cfg := rfl
@[simp] theorem State.setPc_regs (w : Word) : (s.setPc w).regs = s.regs := rfl
@[simp] theorem State.setPc_flags (w : Word) : (s.setPc w).flags = s.flags := rfl
@[simp] theorem State.setPc_sp (w : Word) : (s.setPc w).sp = s.sp := rfl
@[simp] theorem State.setPc_pc (w : Word) : (s.setPc w).pc = w := rfl
@[simp] theorem State.setPc_inte (w : Word) : (s.setPc w).inte = s.inte := rfl
@[simp] theorem State.setPc_inteLate (w : Word) : (s.setPc w).inteLate = s.inteLate := rfl
@[simp] theorem State.setPc_eiPending (w : Word) : (s.setPc w).eiPending = s.eiPending := rfl
@[simp] theorem State.setPc_halted (w : Word) : (s.setPc w).halted = s.halted := rfl
@[simp] theorem State.setPc_masks (w : Word) : (s.setPc w).masks = s.masks := rfl
@[simp] theorem State.setPc_accepted (w : Word) : (s.setPc w).accepted = s.accepted := rfl
@[simp] theorem State.setPc_mem (w : Word) : (s.setPc w).mem = s.mem := rfl
@[simp] theorem State.setPc_env (w : Word) : (s.setPc w).env = s.env := rfl
@[simp] theorem State.setPc_clk (w : Word) : (s.setPc w).clk = s.clk := rfl

@[simp] theorem State.setMem_cfg (m : Memory) : (s.setMem m).cfg = s.cfg := rfl
@[simp] theorem State.setMem_regs (m : Memory) : (s.setMem m).regs = s.regs := rfl
@[simp] theorem State.setMem_flags (m : Memory) : (s.setMem m).flags = s.flags := rfl
@[simp] theorem State.setMem_sp (m : Memory) : (s.setMem m).sp = s.sp := rfl
@[simp] theorem State.setMem_pc (m : Memory) : (s.setMem m).pc = s.pc := rfl
@[simp] theorem State.setMem_inte (m : Memory) : (s.setMem m).inte = s.inte := rfl
@[simp] theorem State.setMem_inteLate (m : Memory) : (s.setMem m).inteLate = s.inteLate := rfl
@[simp] theorem State.setMem_eiPending (m : Memory) : (s.setMem m).eiPending = s.eiPending := rfl
@[simp] theorem State.setMem_halted (m : Memory) : (s.setMem m).halted = s.halted := rfl
@[simp] theorem State.setMem_masks (m : Memory) : (s.setMem m).masks = s.masks := rfl
@[simp] theorem State.setMem_accepted (m : Memory) : (s.setMem m).accepted = s.accepted := rfl
@[simp] theorem State.setMem_mem (m : Memory) : (s.setMem m).mem = m := rfl
@[simp] theorem State.setMem_env (m : Memory) : (s.setMem m).env = s.env := rfl
@[simp] theorem State.setMem_clk (m : Memory) : (s.setMem m).clk = s.clk := rfl

@[simp] theorem State.setEnv_cfg (e : Env) : (s.setEnv e).cfg = s.cfg := rfl
@[simp] theorem State.setEnv_regs (e : Env) : (s.setEnv e).regs = s.regs := rfl
@[simp] theorem State.setEnv_flags (e : Env) : (s.setEnv e).flags = s.flags := rfl
@[simp] theorem State.setEnv_sp (e : Env) : (s.setEnv e).sp = s.sp := rfl
@[simp] theorem State.setEnv_pc (e : Env) : (s.setEnv e).pc = s.pc := rfl
@[simp] theorem State.setEnv_inte (e : Env) : (s.setEnv e).inte = s.inte := rfl
@[simp] theorem State.setEnv_inteLate (e : Env) : (s.setEnv e).inteLate = s.inteLate := rfl
@[simp] theorem State.setEnv_eiPending (e : Env) : (s.setEnv e).eiPending = s.eiPending := rfl
@[simp] theorem State.setEnv_halted (e : Env) : (s.setEnv e).halted = s.halted := rfl
@[simp] theorem State.setEnv_masks (e : Env) : (s.setEnv e).masks = s.masks := rfl
@[simp] theorem State.setEnv_accepted (e : Env) : (s.setEnv e).accepted = s.accepted := rfl
@[simp] theorem State.setEnv_mem (e : Env) : (s.setEnv e).mem = s.mem := rfl
@[simp] theorem State.setEnv_env (e : Env) : (s.setEnv e).env = e := rfl
@[simp] theorem State.setEnv_clk (e : Env) : (s.setEnv e).clk = s.clk := rfl

@[simp] theorem State.setMasks_cfg (m : Masks) : (s.setMasks m).cfg = s.cfg := rfl
@[simp] theorem State.setMasks_regs (m : Masks) : (s.setMasks m).regs = s.regs := rfl
@[simp] theorem State.setMasks_flags (m : Masks) : (s.setMasks m).flags = s.flags := rfl
@[simp] theorem State.setMasks_sp (m : Masks) : (s.setMasks m).sp = s.sp := rfl
@[simp] theorem State.setMasks_pc (m : Masks) : (s.setMasks m).pc = s.pc := rfl
@[simp] theorem State.setMasks_inte (m : Masks) : (s.setMasks m).inte = s.inte := rfl
@[simp] theorem State.setMasks_inteLate (m : Masks) : (s.setMasks m).inteLate = s.inteLate := rfl
@[simp] theorem State.setMasks_eiPending (m : Masks) : (s.setMasks m).eiPending = s.eiPending := rfl
@[simp] theorem State.setMasks_halted (m : Masks) : (s.setMasks m).halted = s.halted := rfl
@[simp] theorem State.setMasks_masks (m : Masks) : (s.setMasks m).masks = m := rfl
@[simp] theorem State.setMasks_accepted (m : Masks) : (s.setMasks m).accepted = s.accepted := rfl
@[simp] theorem State.setMasks_mem (m : Masks) : (s.setMasks m).mem = s.mem := rfl
@[simp] theorem State.setMasks_env (m : Masks) : (s.setMasks m).env = s.env := rfl
@[simp] theorem State.setMasks_clk (m : Masks) : (s.setMasks m).clk = s.clk := rfl

@[simp] theorem State.setHalted_cfg (x : Bool) : (s.setHalted x).cfg = s.cfg := rfl
@[simp] theorem State.setHalted_regs (x : Bool) : (s.setHalted x).regs = s.regs := rfl
@[simp] theorem State.setHalted_flags (x : Bool) : (s.setHalted x).flags = s.flags := rfl
@[simp] theorem State.setHalted_sp (x : Bool) : (s.setHalted x).sp = s.sp := rfl
@[simp] theorem State.setHalted_pc (x : Bool) : (s.setHalted x).pc = s.pc := rfl
@[simp] theorem State.setHalted_inte (x : Bool) : (s.setHalted x).inte = s.inte := rfl
@[simp] theorem State.setHalted_inteLate (x : Bool) : (s.setHalted x).inteLate = s.inteLate := rfl
@[simp] theorem State.setHalted_eiPending (x : Bool) : (s.setHalted x).eiPending = s.eiPending := rfl
@[simp] theorem State.setHalted_halted (x : Bool) : (s.setHalted x).halted = x := rfl
@[simp] theorem State.setHalted_masks (x : Bool) : (s.setHalted x).masks = s.masks := rfl
@[simp] theorem State.setHalted_accepted (x : Bool) : (s.setHalted x).accepted = s.accepted := rfl
@[simp] theorem State.setHalted_mem (x : Bool) : (s.setHalted x).mem = s.mem := rfl
@[simp] theorem State.setHalted_env (x : Bool) : (s.setHalted x).env = s.env := rfl
@[simp] theorem State.setHalted_clk (x : Bool) : (s.setHalted x).clk = s.clk := rfl

@[simp] theorem State.setAccepted_cfg (e : Option Entry) : (s.setAccepted e).cfg = s.cfg := rfl
@[simp] theorem State.setAccepted_regs (e : Option Entry) : (s.setAccepted e).regs = s.regs := rfl
@[simp] theorem State.setAccepted_flags (e : Option Entry) : (s.setAccepted e).flags = s.flags := rfl
@[simp] theorem State.setAccepted_sp (e : Option Entry) : (s.setAccepted e).sp = s.sp := rfl
@[simp] theorem State.setAccepted_pc (e : Option Entry) : (s.setAccepted e).pc = s.pc := rfl
@[simp] theorem State.setAccepted_inte (e : Option Entry) : (s.setAccepted e).inte = s.inte := rfl
@[simp] theorem State.setAccepted_inteLate (e : Option Entry) : (s.setAccepted e).inteLate = s.inteLate := rfl
@[simp] theorem State.setAccepted_eiPending (e : Option Entry) : (s.setAccepted e).eiPending = s.eiPending := rfl
@[simp] theorem State.setAccepted_halted (e : Option Entry) : (s.setAccepted e).halted = s.halted := rfl
@[simp] theorem State.setAccepted_masks (e : Option Entry) : (s.setAccepted e).masks = s.masks := rfl
@[simp] theorem State.setAccepted_accepted (e : Option Entry) : (s.setAccepted e).accepted = e := rfl
@[simp] theorem State.setAccepted_mem (e : Option Entry) : (s.setAccepted e).mem = s.mem := rfl
@[simp] theorem State.setAccepted_env (e : Option Entry) : (s.setAccepted e).env = s.env := rfl
@[simp] theorem State.setAccepted_clk (e : Option Entry) : (s.setAccepted e).clk = s.clk := rfl

@[simp] theorem State.setClk_cfg (n : Nat) : (s.setClk n).cfg = s.cfg := rfl
@[simp] theorem State.setClk_regs (n : Nat) : (s.setClk n).regs = s.regs := rfl
@[simp] theorem State.setClk_flags (n : Nat) : (s.setClk n).flags = s.flags := rfl
@[simp] theorem State.setClk_sp (n : Nat) : (s.setClk n).sp = s.sp := rfl
@[simp] theorem State.setClk_pc (n : Nat) : (s.setClk n).pc = s.pc := rfl
@[simp] theorem State.setClk_inte (n : Nat) : (s.setClk n).inte = s.inte := rfl
@[simp] theorem State.setClk_inteLate (n : Nat) : (s.setClk n).inteLate = s.inteLate := rfl
@[simp] theorem State.setClk_eiPending (n : Nat) : (s.setClk n).eiPending = s.eiPending := rfl
@[simp] theorem State.setClk_halted (n : Nat) : (s.setClk n).halted = s.halted := rfl
@[simp] theorem State.setClk_masks (n : Nat) : (s.setClk n).masks = s.masks := rfl
@[simp] theorem State.setClk_accepted (n : Nat) : (s.setClk n).accepted = s.accepted := rfl
@[simp] theorem State.setClk_mem (n : Nat) : (s.setClk n).mem = s.mem := rfl
@[simp] theorem State.setClk_env (n : Nat) : (s.setClk n).env = s.env := rfl
@[simp] theorem State.setClk_clk (n : Nat) : (s.setClk n).clk = n := rfl

@[simp] theorem State.setEnable_cfg (on late : Bool) (n : Nat) : (s.setEnable on late n).cfg = s.cfg := rfl
@[simp] theorem State.setEnable_regs (on late : Bool) (n : Nat) : (s.setEnable on late n).regs = s.regs := rfl
@[simp] theorem State.setEnable_flags (on late : Bool) (n : Nat) : (s.setEnable on late n).flags = s.flags := rfl
@[simp] theorem State.setEnable_sp (on late : Bool) (n : Nat) : (s.setEnable on late n).sp = s.sp := rfl
@[simp] theorem State.setEnable_pc (on late : Bool) (n : Nat) : (s.setEnable on late n).pc = s.pc := rfl
@[simp] theorem State.setEnable_inte (on late : Bool) (n : Nat) : (s.setEnable on late n).inte = on := rfl
@[simp] theorem State.setEnable_inteLate (on late : Bool) (n : Nat) : (s.setEnable on late n).inteLate = late := rfl
@[simp] theorem State.setEnable_eiPending (on late : Bool) (n : Nat) : (s.setEnable on late n).eiPending = n := rfl
@[simp] theorem State.setEnable_halted (on late : Bool) (n : Nat) : (s.setEnable on late n).halted = s.halted := rfl
@[simp] theorem State.setEnable_masks (on late : Bool) (n : Nat) : (s.setEnable on late n).masks = s.masks := rfl
@[simp] theorem State.setEnable_accepted (on late : Bool) (n : Nat) : (s.setEnable on late n).accepted = s.accepted := rfl
@[simp] theorem State.setEnable_mem (on late : Bool) (n : Nat) : (s.setEnable on late n).mem = s.mem := rfl
@[simp] theorem State.setEnable_env (on late : Bool) (n : Nat) : (s.setEnable on late n).env = s.env := rfl
@[simp] theorem State.setEnable_clk (on late : Bool) (n : Nat) : (s.setEnable on late n).clk = s.clk := rfl

/-! The updates that are one field update each. -/

@[simp] theorem State.setA_eq (v : Byte) : s.setA v = s.setRegs { s.regs with a := v } := rfl
@[simp] theorem State.setCy_eq (x : Bool) : s.setCy x = s.setFlags { s.flags with cy := x } := rfl
@[simp] theorem State.setBc_eq (w : Word) : s.setBc w = s.setRegs { s.regs with b := hiByte w, c := loByte w } := rfl
@[simp] theorem State.setDe_eq (w : Word) : s.setDe w = s.setRegs { s.regs with d := hiByte w, e := loByte w } := rfl
@[simp] theorem State.setHl_eq (w : Word) : s.setHl w = s.setRegs { s.regs with h := hiByte w, l := loByte w } := rfl
@[simp] theorem State.emit_eq (e : Event) :
    s.emit e = s.setEnv { s.env with history := s.env.history ++ [e] } := rfl
@[simp] theorem State.draw_eq : s.draw = s.setEnv { s.env with draws := s.env.draws + 1 } := rfl
@[simp] theorem State.dropSlot_eq : s.dropSlot = s.setEnv { s.env with slots := s.env.slots.tail } := rfl
@[simp] theorem State.poke_eq (a : Word) (v : Byte) : s.poke a v = s.setMem (s.mem.write a.toNat v) := rfl

/-- The kind of an address depends on the parameters only. -/
theorem State.kindAt_congr (t : State) (h : t.cfg = s.cfg) (a : Word) : t.kindAt a = s.kindAt a := by
  simp only [State.kindAt, h]

/-- The byte at an address depends on the memory only. -/
theorem State.byteAt_congr (t : State) (h : t.mem = s.mem) (a : Word) : t.byteAt a = s.byteAt a := by
  simp only [State.byteAt, h]

end Sys2Proof.Machine
end

