-- ==== Sys2Proof/Laws/Ops.lean ====
section
/-! SUPPORT. What each shared operation of Machine/Ops.lean can do, said once. -/

namespace Sys2Proof.Machine

/-! ### A memory read changes nothing but the free-value counter and the history -/

/-- All a memory read can do: where RAM or ROM stands, the byte and no change; else a free value, and the counter and
the history go on. -/
theorem State.memRead_cases (s : State) (a : Word) :
    ((s.kindAt a = .ram ∨ s.kindAt a = .rom) ∧ s.memRead a = (s.byteAt a, s)) ∨
    (s.kindAt a = .unpopulated ∧ s.memRead a = (Config.freeBusByte s.env.draws a, s.draw)) ∨
    (s.kindAt a = .device ∧ s.memRead a = (Config.freeBusByte s.env.draws a,
      s.draw.emit (.deviceRead a (Config.freeBusByte s.env.draws a)))) := by
  unfold State.memRead
  cases s.kindAt a <;> simp

theorem State.memRead_plain (s : State) (a : Word) (h : s.kindAt a = .ram ∨ s.kindAt a = .rom) :
    s.memRead a = (s.byteAt a, s) := by
  unfold State.memRead
  rcases h with h | h <;> rw [h]

@[simp] theorem State.memRead_cfg (s : State) (a : Word) : ((s.memRead a).2).cfg = s.cfg := by
  unfold State.memRead; cases s.kindAt a <;> rfl
@[simp] theorem State.memRead_regs (s : State) (a : Word) : ((s.memRead a).2).regs = s.regs := by
  unfold State.memRead; cases s.kindAt a <;> rfl
@[simp] theorem State.memRead_flags (s : State) (a : Word) : ((s.memRead a).2).flags = s.flags := by
  unfold State.memRead; cases s.kindAt a <;> rfl
@[simp] theorem State.memRead_sp (s : State) (a : Word) : ((s.memRead a).2).sp = s.sp := by
  unfold State.memRead; cases s.kindAt a <;> rfl
@[simp] theorem State.memRead_pc (s : State) (a : Word) : ((s.memRead a).2).pc = s.pc := by
  unfold State.memRead; cases s.kindAt a <;> rfl
@[simp] theorem State.memRead_inte (s : State) (a : Word) : ((s.memRead a).2).inte = s.inte := by
  unfold State.memRead; cases s.kindAt a <;> rfl
@[simp] theorem State.memRead_inteLate (s : State) (a : Word) : ((s.memRead a).2).inteLate = s.inteLate := by
  unfold State.memRead; cases s.kindAt a <;> rfl
@[simp] theorem State.memRead_eiPending (s : State) (a : Word) : ((s.memRead a).2).eiPending = s.eiPending := by
  unfold State.memRead; cases s.kindAt a <;> rfl
@[simp] theorem State.memRead_halted (s : State) (a : Word) : ((s.memRead a).2).halted = s.halted := by
  unfold State.memRead; cases s.kindAt a <;> rfl
@[simp] theorem State.memRead_masks (s : State) (a : Word) : ((s.memRead a).2).masks = s.masks := by
  unfold State.memRead; cases s.kindAt a <;> rfl
@[simp] theorem State.memRead_accepted (s : State) (a : Word) : ((s.memRead a).2).accepted = s.accepted := by
  unfold State.memRead; cases s.kindAt a <;> rfl
@[simp] theorem State.memRead_mem (s : State) (a : Word) : ((s.memRead a).2).mem = s.mem := by
  unfold State.memRead; cases s.kindAt a <;> rfl
@[simp] theorem State.memRead_clk (s : State) (a : Word) : ((s.memRead a).2).clk = s.clk := by
  unfold State.memRead; cases s.kindAt a <;> rfl

@[simp] theorem State.memRead_inputs (s : State) (a : Word) : (s.memRead a).2.env.inputs = s.env.inputs := by
  unfold State.memRead; cases s.kindAt a <;> rfl
@[simp] theorem State.memRead_slots (s : State) (a : Word) : (s.memRead a).2.env.slots = s.env.slots := by
  unfold State.memRead; cases s.kindAt a <;> rfl

/-- The history only grows in a memory read. -/
theorem State.memRead_history (s : State) (a : Word) : s.env.history <+: (s.memRead a).2.env.history := by
  rcases s.memRead_cases a with ⟨-, h⟩ | ⟨-, h⟩ | ⟨-, h⟩ <;> rw [h] <;> simp

/-! ### A memory write changes nothing but the memory and the history -/

@[simp] theorem State.memWrite_cfg (s : State) (a : Word) (v : Byte) : (s.memWrite a v).cfg = s.cfg := by
  unfold State.memWrite; cases s.kindAt a <;> rfl
@[simp] theorem State.memWrite_regs (s : State) (a : Word) (v : Byte) : (s.memWrite a v).regs = s.regs := by
  unfold State.memWrite; cases s.kindAt a <;> rfl
@[simp] theorem State.memWrite_flags (s : State) (a : Word) (v : Byte) : (s.memWrite a v).flags = s.flags := by
  unfold State.memWrite; cases s.kindAt a <;> rfl
@[simp] theorem State.memWrite_sp (s : State) (a : Word) (v : Byte) : (s.memWrite a v).sp = s.sp := by
  unfold State.memWrite; cases s.kindAt a <;> rfl
@[simp] theorem State.memWrite_pc (s : State) (a : Word) (v : Byte) : (s.memWrite a v).pc = s.pc := by
  unfold State.memWrite; cases s.kindAt a <;> rfl
@[simp] theorem State.memWrite_inte (s : State) (a : Word) (v : Byte) : (s.memWrite a v).inte = s.inte := by
  unfold State.memWrite; cases s.kindAt a <;> rfl
@[simp] theorem State.memWrite_inteLate (s : State) (a : Word) (v : Byte) : (s.memWrite a v).inteLate = s.inteLate := by
  unfold State.memWrite; cases s.kindAt a <;> rfl
@[simp] theorem State.memWrite_eiPending (s : State) (a : Word) (v : Byte) : (s.memWrite a v).eiPending = s.eiPending := by
  unfold State.memWrite; cases s.kindAt a <;> rfl
@[simp] theorem State.memWrite_halted (s : State) (a : Word) (v : Byte) : (s.memWrite a v).halted = s.halted := by
  unfold State.memWrite; cases s.kindAt a <;> rfl
@[simp] theorem State.memWrite_masks (s : State) (a : Word) (v : Byte) : (s.memWrite a v).masks = s.masks := by
  unfold State.memWrite; cases s.kindAt a <;> rfl
@[simp] theorem State.memWrite_accepted (s : State) (a : Word) (v : Byte) : (s.memWrite a v).accepted = s.accepted := by
  unfold State.memWrite; cases s.kindAt a <;> rfl
@[simp] theorem State.memWrite_clk (s : State) (a : Word) (v : Byte) : (s.memWrite a v).clk = s.clk := by
  unfold State.memWrite; cases s.kindAt a <;> rfl

@[simp] theorem State.memWrite_mem (s : State) (a : Word) (v : Byte) :
    (s.memWrite a v).mem = if s.kindAt a = .ram then s.mem.write a.toNat v else s.mem := by
  unfold State.memWrite; cases s.kindAt a <;> simp

@[simp] theorem State.memWrite_env (s : State) (a : Word) (v : Byte) :
    (s.memWrite a v).env =
      if s.kindAt a = .device then { s.env with history := s.env.history ++ [.deviceWrite a v] } else s.env := by
  unfold State.memWrite; cases s.kindAt a <;> simp

/-- Every byte after a memory write. -/
theorem State.memWrite_byteAt (s : State) (a : Word) (v : Byte) (x : Word) :
    (s.memWrite a v).byteAt x = if x = a ∧ s.kindAt a = .ram then v else s.byteAt x := by
  simp only [State.byteAt, State.memWrite_mem]
  by_cases h : s.kindAt a = .ram
  · simp only [h, if_true, and_true, Memory.read_write]
    by_cases hx : x = a
    · simp [hx]
    · have : x.toNat ≠ a.toNat := fun e => hx (BitVec.eq_of_toNat_eq e)
      simp [hx, this]
  · simp [h]

theorem State.memWrite_wf (s : State) (a : Word) (v : Byte) (h : s.mem.wf = true) :
    (s.memWrite a v).mem.wf = true := by
  rw [State.memWrite_mem]
  split
  · exact Memory.wf_write _ _ _ (word_lt_memorySize a) h
  · exact h

theorem State.memWrite_history (s : State) (a : Word) (v : Byte) :
    s.env.history <+: (s.memWrite a v).env.history := by
  rw [State.memWrite_env]
  split <;> simp

@[simp] theorem State.memWrite_kindAt (s : State) (a : Word) (v : Byte) (x : Word) :
    (s.memWrite a v).kindAt x = s.kindAt x := State.kindAt_congr _ _ (by simp) x

@[simp] theorem State.memRead_kindAt (s : State) (a x : Word) :
    (s.memRead a).2.kindAt x = s.kindAt x := State.kindAt_congr _ _ (by simp) x

@[simp] theorem State.memRead_byteAt (s : State) (a x : Word) :
    (s.memRead a).2.byteAt x = s.byteAt x := State.byteAt_congr _ _ (by simp) x

/-! ### The stack -/

@[simp] theorem State.pushBytes_cfg (s : State) (hi lo : Byte) : (s.pushBytes hi lo).cfg = s.cfg := by
  simp [State.pushBytes]
@[simp] theorem State.pushBytes_regs (s : State) (hi lo : Byte) : (s.pushBytes hi lo).regs = s.regs := by
  simp [State.pushBytes]
@[simp] theorem State.pushBytes_flags (s : State) (hi lo : Byte) : (s.pushBytes hi lo).flags = s.flags := by
  simp [State.pushBytes]
@[simp] theorem State.pushBytes_pc (s : State) (hi lo : Byte) : (s.pushBytes hi lo).pc = s.pc := by
  simp [State.pushBytes]
@[simp] theorem State.pushBytes_inte (s : State) (hi lo : Byte) : (s.pushBytes hi lo).inte = s.inte := by
  simp [State.pushBytes]
@[simp] theorem State.pushBytes_inteLate (s : State) (hi lo : Byte) : (s.pushBytes hi lo).inteLate = s.inteLate := by
  simp [State.pushBytes]
@[simp] theorem State.pushBytes_eiPending (s : State) (hi lo : Byte) : (s.pushBytes hi lo).eiPending = s.eiPending := by
  simp [State.pushBytes]
@[simp] theorem State.pushBytes_halted (s : State) (hi lo : Byte) : (s.pushBytes hi lo).halted = s.halted := by
  simp [State.pushBytes]
@[simp] theorem State.pushBytes_masks (s : State) (hi lo : Byte) : (s.pushBytes hi lo).masks = s.masks := by
  simp [State.pushBytes]
@[simp] theorem State.pushBytes_accepted (s : State) (hi lo : Byte) : (s.pushBytes hi lo).accepted = s.accepted := by
  simp [State.pushBytes]
@[simp] theorem State.pushBytes_clk (s : State) (hi lo : Byte) : (s.pushBytes hi lo).clk = s.clk := by
  simp [State.pushBytes]

@[simp] theorem State.pushBytes_sp (s : State) (hi lo : Byte) : (s.pushBytes hi lo).sp = s.sp - 2#16 := rfl

theorem State.pushBytes_wf (s : State) (hi lo : Byte) (h : s.mem.wf = true) :
    (s.pushBytes hi lo).mem.wf = true := State.memWrite_wf _ _ _ (State.memWrite_wf _ _ _ h)

theorem State.pushBytes_history (s : State) (hi lo : Byte) :
    s.env.history <+: (s.pushBytes hi lo).env.history :=
  (State.memWrite_history _ _ _).trans (State.memWrite_history _ _ _)

@[simp] theorem State.popWord_cfg (s : State)  : (s.popWord.2).cfg = s.cfg := by
  simp [State.popWord]
@[simp] theorem State.popWord_regs (s : State)  : (s.popWord.2).regs = s.regs := by
  simp [State.popWord]
@[simp] theorem State.popWord_flags (s : State)  : (s.popWord.2).flags = s.flags := by
  simp [State.popWord]
@[simp] theorem State.popWord_pc (s : State)  : (s.popWord.2).pc = s.pc := by
  simp [State.popWord]
@[simp] theorem State.popWord_inte (s : State)  : (s.popWord.2).inte = s.inte := by
  simp [State.popWord]
@[simp] theorem State.popWord_inteLate (s : State)  : (s.popWord.2).inteLate = s.inteLate := by
  simp [State.popWord]
@[simp] theorem State.popWord_eiPending (s : State)  : (s.popWord.2).eiPending = s.eiPending := by
  simp [State.popWord]
@[simp] theorem State.popWord_halted (s : State)  : (s.popWord.2).halted = s.halted := by
  simp [State.popWord]
@[simp] theorem State.popWord_masks (s : State)  : (s.popWord.2).masks = s.masks := by
  simp [State.popWord]
@[simp] theorem State.popWord_accepted (s : State)  : (s.popWord.2).accepted = s.accepted := by
  simp [State.popWord]
@[simp] theorem State.popWord_mem (s : State)  : (s.popWord.2).mem = s.mem := by
  simp [State.popWord]
@[simp] theorem State.popWord_clk (s : State)  : (s.popWord.2).clk = s.clk := by
  simp [State.popWord]

@[simp] theorem State.popWord_sp (s : State) : s.popWord.2.sp = s.sp + 2#16 := rfl

theorem State.popWord_history (s : State) : s.env.history <+: s.popWord.2.env.history :=
  (State.memRead_history _ _).trans (State.memRead_history _ _)

@[simp] theorem State.pushPc_cfg (s : State)  : (s.pushPc).cfg = s.cfg := by
  simp [State.pushPc]
@[simp] theorem State.pushPc_regs (s : State)  : (s.pushPc).regs = s.regs := by
  simp [State.pushPc]
@[simp] theorem State.pushPc_flags (s : State)  : (s.pushPc).flags = s.flags := by
  simp [State.pushPc]
@[simp] theorem State.pushPc_pc (s : State)  : (s.pushPc).pc = s.pc := by
  simp [State.pushPc]
@[simp] theorem State.pushPc_inte (s : State)  : (s.pushPc).inte = s.inte := by
  simp [State.pushPc]
@[simp] theorem State.pushPc_inteLate (s : State)  : (s.pushPc).inteLate = s.inteLate := by
  simp [State.pushPc]
@[simp] theorem State.pushPc_eiPending (s : State)  : (s.pushPc).eiPending = s.eiPending := by
  simp [State.pushPc]
@[simp] theorem State.pushPc_halted (s : State)  : (s.pushPc).halted = s.halted := by
  simp [State.pushPc]
@[simp] theorem State.pushPc_masks (s : State)  : (s.pushPc).masks = s.masks := by
  simp [State.pushPc]
@[simp] theorem State.pushPc_accepted (s : State)  : (s.pushPc).accepted = s.accepted := by
  simp [State.pushPc]
@[simp] theorem State.pushPc_clk (s : State)  : (s.pushPc).clk = s.clk := by
  simp [State.pushPc]

@[simp] theorem State.pushPc_sp (s : State) : s.pushPc.sp = s.sp - 2#16 := rfl

theorem State.pushPc_wf (s : State) (h : s.mem.wf = true) : s.pushPc.mem.wf = true := State.pushBytes_wf _ _ _ h

theorem State.pushPc_history (s : State) : s.env.history <+: s.pushPc.env.history := State.pushBytes_history _ _ _

@[simp] theorem State.returnFrom_cfg (s : State)  : (s.returnFrom).cfg = s.cfg := by
  simp [State.returnFrom]
@[simp] theorem State.returnFrom_regs (s : State)  : (s.returnFrom).regs = s.regs := by
  simp [State.returnFrom]
@[simp] theorem State.returnFrom_flags (s : State)  : (s.returnFrom).flags = s.flags := by
  simp [State.returnFrom]
@[simp] theorem State.returnFrom_inte (s : State)  : (s.returnFrom).inte = s.inte := by
  simp [State.returnFrom]
@[simp] theorem State.returnFrom_inteLate (s : State)  : (s.returnFrom).inteLate = s.inteLate := by
  simp [State.returnFrom]
@[simp] theorem State.returnFrom_eiPending (s : State)  : (s.returnFrom).eiPending = s.eiPending := by
  simp [State.returnFrom]
@[simp] theorem State.returnFrom_halted (s : State)  : (s.returnFrom).halted = s.halted := by
  simp [State.returnFrom]
@[simp] theorem State.returnFrom_masks (s : State)  : (s.returnFrom).masks = s.masks := by
  simp [State.returnFrom]
@[simp] theorem State.returnFrom_accepted (s : State)  : (s.returnFrom).accepted = s.accepted := by
  simp [State.returnFrom]
@[simp] theorem State.returnFrom_mem (s : State)  : (s.returnFrom).mem = s.mem := by
  simp [State.returnFrom]
@[simp] theorem State.returnFrom_clk (s : State)  : (s.returnFrom).clk = s.clk := by
  simp [State.returnFrom]

@[simp] theorem State.returnFrom_sp (s : State) : s.returnFrom.sp = s.sp + 2#16 := rfl
@[simp] theorem State.returnFrom_pc (s : State) : s.returnFrom.pc = s.popWord.1 := rfl

theorem State.returnFrom_history (s : State) : s.env.history <+: s.returnFrom.env.history := State.popWord_history _

/-! ### Input and output -/

@[simp] theorem State.ioRead_cfg (s : State) (p : Byte) : ((s.ioRead p).2).cfg = s.cfg := rfl
@[simp] theorem State.ioRead_regs (s : State) (p : Byte) : ((s.ioRead p).2).regs = s.regs := rfl
@[simp] theorem State.ioRead_flags (s : State) (p : Byte) : ((s.ioRead p).2).flags = s.flags := rfl
@[simp] theorem State.ioRead_sp (s : State) (p : Byte) : ((s.ioRead p).2).sp = s.sp := rfl
@[simp] theorem State.ioRead_pc (s : State) (p : Byte) : ((s.ioRead p).2).pc = s.pc := rfl
@[simp] theorem State.ioRead_inte (s : State) (p : Byte) : ((s.ioRead p).2).inte = s.inte := rfl
@[simp] theorem State.ioRead_inteLate (s : State) (p : Byte) : ((s.ioRead p).2).inteLate = s.inteLate := rfl
@[simp] theorem State.ioRead_eiPending (s : State) (p : Byte) : ((s.ioRead p).2).eiPending = s.eiPending := rfl
@[simp] theorem State.ioRead_halted (s : State) (p : Byte) : ((s.ioRead p).2).halted = s.halted := rfl
@[simp] theorem State.ioRead_masks (s : State) (p : Byte) : ((s.ioRead p).2).masks = s.masks := rfl
@[simp] theorem State.ioRead_accepted (s : State) (p : Byte) : ((s.ioRead p).2).accepted = s.accepted := rfl
@[simp] theorem State.ioRead_mem (s : State) (p : Byte) : ((s.ioRead p).2).mem = s.mem := rfl
@[simp] theorem State.ioRead_clk (s : State) (p : Byte) : ((s.ioRead p).2).clk = s.clk := rfl

/-- A listed answer is the answer. -/
theorem portAnswer_listed (cfg : Config.Params) (n : Nat) (p : Byte) (x : Config.PortAnswer)
    (h : cfg.ioIn.find? (fun y => y.position = n ∧ y.port = p) = some x) : portAnswer cfg n p = x.value := by
  simp only [portAnswer, h]

/-- Everything an `IoRead` does. -/
theorem State.ioRead_eq (s : State) (p : Byte) :
    s.ioRead p = (portAnswer s.cfg s.env.inputs p, { s with env := { s.env with
      inputs := s.env.inputs + 1
      history := s.env.history ++ [.input p (portAnswer s.cfg s.env.inputs p)] } }) := rfl

theorem State.ioRead_history (s : State) (p : Byte) :
    (s.ioRead p).2.env.history = s.env.history ++ [.input p (s.ioRead p).1] := by
  rfl

@[simp] theorem State.ioWrite_cfg (s : State) (p v : Byte) : (s.ioWrite p v).cfg = s.cfg := by
  rfl
@[simp] theorem State.ioWrite_regs (s : State) (p v : Byte) : (s.ioWrite p v).regs = s.regs := by
  rfl
@[simp] theorem State.ioWrite_flags (s : State) (p v : Byte) : (s.ioWrite p v).flags = s.flags := by
  rfl
@[simp] theorem State.ioWrite_sp (s : State) (p v : Byte) : (s.ioWrite p v).sp = s.sp := by
  rfl
@[simp] theorem State.ioWrite_pc (s : State) (p v : Byte) : (s.ioWrite p v).pc = s.pc := by
  rfl
@[simp] theorem State.ioWrite_inte (s : State) (p v : Byte) : (s.ioWrite p v).inte = s.inte := by
  rfl
@[simp] theorem State.ioWrite_inteLate (s : State) (p v : Byte) : (s.ioWrite p v).inteLate = s.inteLate := by
  rfl
@[simp] theorem State.ioWrite_eiPending (s : State) (p v : Byte) : (s.ioWrite p v).eiPending = s.eiPending := by
  rfl
@[simp] theorem State.ioWrite_halted (s : State) (p v : Byte) : (s.ioWrite p v).halted = s.halted := by
  rfl
@[simp] theorem State.ioWrite_masks (s : State) (p v : Byte) : (s.ioWrite p v).masks = s.masks := by
  rfl
@[simp] theorem State.ioWrite_accepted (s : State) (p v : Byte) : (s.ioWrite p v).accepted = s.accepted := by
  rfl
@[simp] theorem State.ioWrite_mem (s : State) (p v : Byte) : (s.ioWrite p v).mem = s.mem := by
  rfl
@[simp] theorem State.ioWrite_clk (s : State) (p v : Byte) : (s.ioWrite p v).clk = s.clk := by
  rfl

/-! ### The latches -/

@[simp] theorem State.writeMasks_cfg (s : State) (m : Masks) : (s.writeMasks m).cfg = s.cfg := by
  unfold State.writeMasks; split <;> simp
@[simp] theorem State.writeMasks_regs (s : State) (m : Masks) : (s.writeMasks m).regs = s.regs := by
  unfold State.writeMasks; split <;> simp
@[simp] theorem State.writeMasks_flags (s : State) (m : Masks) : (s.writeMasks m).flags = s.flags := by
  unfold State.writeMasks; split <;> simp
@[simp] theorem State.writeMasks_sp (s : State) (m : Masks) : (s.writeMasks m).sp = s.sp := by
  unfold State.writeMasks; split <;> simp
@[simp] theorem State.writeMasks_pc (s : State) (m : Masks) : (s.writeMasks m).pc = s.pc := by
  unfold State.writeMasks; split <;> simp
@[simp] theorem State.writeMasks_inte (s : State) (m : Masks) : (s.writeMasks m).inte = s.inte := by
  unfold State.writeMasks; split <;> simp
@[simp] theorem State.writeMasks_inteLate (s : State) (m : Masks) : (s.writeMasks m).inteLate = s.inteLate := by
  unfold State.writeMasks; split <;> simp
@[simp] theorem State.writeMasks_eiPending (s : State) (m : Masks) : (s.writeMasks m).eiPending = s.eiPending := by
  unfold State.writeMasks; split <;> simp
@[simp] theorem State.writeMasks_halted (s : State) (m : Masks) : (s.writeMasks m).halted = s.halted := by
  unfold State.writeMasks; split <;> simp
@[simp] theorem State.writeMasks_accepted (s : State) (m : Masks) : (s.writeMasks m).accepted = s.accepted := by
  unfold State.writeMasks; split <;> simp
@[simp] theorem State.writeMasks_mem (s : State) (m : Masks) : (s.writeMasks m).mem = s.mem := by
  unfold State.writeMasks; split <;> simp
@[simp] theorem State.writeMasks_clk (s : State) (m : Masks) : (s.writeMasks m).clk = s.clk := by
  unfold State.writeMasks; split <;> simp

@[simp] theorem State.writeMasks_masks (s : State) (m : Masks) : (s.writeMasks m).masks = m := by
  unfold State.writeMasks; split <;> simp

theorem State.writeMasks_history (s : State) (m : Masks) : s.env.history <+: (s.writeMasks m).env.history := by
  unfold State.writeMasks; split <;> simp

/-! ### The RESET input and the interrupt entries -/

@[simp] theorem State.resetInput_cfg (s : State)  : (s.resetInput).cfg = s.cfg := by
  unfold State.resetInput; cases s.cfg.variant <;> simp
@[simp] theorem State.resetInput_regs (s : State)  : (s.resetInput).regs = s.regs := by
  unfold State.resetInput; cases s.cfg.variant <;> simp
@[simp] theorem State.resetInput_flags (s : State)  : (s.resetInput).flags = s.flags := by
  unfold State.resetInput; cases s.cfg.variant <;> simp
@[simp] theorem State.resetInput_sp (s : State)  : (s.resetInput).sp = s.sp := by
  unfold State.resetInput; cases s.cfg.variant <;> simp
@[simp] theorem State.resetInput_mem (s : State)  : (s.resetInput).mem = s.mem := by
  unfold State.resetInput; cases s.cfg.variant <;> simp
@[simp] theorem State.resetInput_clk (s : State)  : (s.resetInput).clk = s.clk := by
  unfold State.resetInput; cases s.cfg.variant <;> simp

@[simp] theorem State.enterInterrupt_cfg (s : State)  : (s.enterInterrupt).cfg = s.cfg := by
  rfl
@[simp] theorem State.enterInterrupt_regs (s : State)  : (s.enterInterrupt).regs = s.regs := by
  rfl
@[simp] theorem State.enterInterrupt_flags (s : State)  : (s.enterInterrupt).flags = s.flags := by
  rfl
@[simp] theorem State.enterInterrupt_sp (s : State)  : (s.enterInterrupt).sp = s.sp := by
  rfl
@[simp] theorem State.enterInterrupt_pc (s : State)  : (s.enterInterrupt).pc = s.pc := by
  rfl
@[simp] theorem State.enterInterrupt_masks (s : State)  : (s.enterInterrupt).masks = s.masks := by
  rfl
@[simp] theorem State.enterInterrupt_mem (s : State)  : (s.enterInterrupt).mem = s.mem := by
  rfl
@[simp] theorem State.enterInterrupt_env (s : State)  : (s.enterInterrupt).env = s.env := by
  rfl
@[simp] theorem State.enterInterrupt_clk (s : State)  : (s.enterInterrupt).clk = s.clk := by
  rfl

@[simp] theorem State.enterInterrupt_inte (s : State) : s.enterInterrupt.inte = false := rfl
@[simp] theorem State.enterInterrupt_inteLate (s : State) : s.enterInterrupt.inteLate = false := rfl
@[simp] theorem State.enterInterrupt_eiPending (s : State) : s.enterInterrupt.eiPending = 0 := rfl
@[simp] theorem State.enterInterrupt_halted (s : State) : s.enterInterrupt.halted = false := rfl
@[simp] theorem State.enterInterrupt_accepted (s : State) : s.enterInterrupt.accepted = none := rfl

@[simp] theorem State.takeRestart_cfg (s : State) (r : Restart) : (s.takeRestart r).cfg = s.cfg := by
  cases r <;> simp [State.takeRestart]
@[simp] theorem State.takeRestart_regs (s : State) (r : Restart) : (s.takeRestart r).regs = s.regs := by
  cases r <;> simp [State.takeRestart]
@[simp] theorem State.takeRestart_flags (s : State) (r : Restart) : (s.takeRestart r).flags = s.flags := by
  cases r <;> simp [State.takeRestart]
@[simp] theorem State.takeRestart_clk (s : State) (r : Restart) : (s.takeRestart r).clk = s.clk := by
  cases r <;> simp [State.takeRestart]

@[simp] theorem State.takeRestart_inte (s : State) (r : Restart) : (s.takeRestart r).inte = false := by
  cases r <;> simp [State.takeRestart]
@[simp] theorem State.takeRestart_inteLate (s : State) (r : Restart) : (s.takeRestart r).inteLate = false := by
  cases r <;> simp [State.takeRestart]
@[simp] theorem State.takeRestart_eiPending (s : State) (r : Restart) : (s.takeRestart r).eiPending = 0 := by
  cases r <;> simp [State.takeRestart]
@[simp] theorem State.takeRestart_halted (s : State) (r : Restart) : (s.takeRestart r).halted = false := by
  cases r <;> simp [State.takeRestart]
@[simp] theorem State.takeRestart_accepted (s : State) (r : Restart) : (s.takeRestart r).accepted = none := by
  cases r <;> simp [State.takeRestart]
@[simp] theorem State.takeRestart_sp (s : State) (r : Restart) : (s.takeRestart r).sp = s.sp - 2#16 := by
  cases r <;> simp [State.takeRestart]
@[simp] theorem State.takeRestart_pc (s : State) (r : Restart) : (s.takeRestart r).pc = restartVector r := by
  cases r <;> simp [State.takeRestart]

theorem State.takeRestart_wf (s : State) (r : Restart) (h : s.mem.wf = true) : (s.takeRestart r).mem.wf = true := by
  cases r <;> exact State.pushPc_wf _ h

end Sys2Proof.Machine
end

