-- ==== Sys2Proof/Laws/Fetch.lean ====
section
/-! SUPPORT. What a fetch leaves: only `PC`, and what its memory reads may change. -/

namespace Sys2Proof.Machine

/-- One instruction byte from plain memory. -/
theorem State.fetchByte_plain (s : State) (h : s.kindAt s.pc = .ram ∨ s.kindAt s.pc = .rom) :
    s.fetchByte = (s.byteAt s.pc, s.setPc (s.pc + 1#16)) := by
  simp only [State.fetchByte, s.memRead_plain s.pc h]

/-- One instruction byte read changes `PC` and what a read may change. -/
theorem State.fetchByte_frame (s : State) :
    s.fetchByte.2 = { s with pc := s.pc + 1#16, env := (s.memRead s.pc).2.env } := by
  apply State.ext <;> simp [State.fetchByte]

/-- A fetch changes `PC` and the free-value counter and the history of the environment. -/
theorem State.fetch_frame (s : State) :
    s.fetch.2 = { s with pc := s.fetch.2.pc, env := s.fetch.2.env } ∧ s.fetch.2.env.slots = s.env.slots ∧
      s.fetch.2.env.inputs = s.env.inputs := by
  unfold State.fetch
  simp only
  split <;> refine ⟨?_, ?_, ?_⟩ <;> simp [State.fetchByte_frame]

/-- What is fetched is the decoding of three bytes. -/
theorem State.fetch_decodeOp (s : State) : ∃ b1 b2 b3, s.fetch.1 = decodeOp s.cfg.variant b1 b2 b3 := by
  unfold State.fetch
  simp only
  split
  · exact ⟨_, _, _, by simp [State.fetchByte]; rfl⟩
  · exact ⟨_, _, _, by simp [State.fetchByte]; rfl⟩
  · exact ⟨_, _, _, by simp [State.fetchByte]; rfl⟩

end Sys2Proof.Machine
end

