-- ==== Sys2Proof/Laws/Flags.lean ====
section
/-! SUPPORT. What the flag computations give, in numbers: a proof cites these and does not unfold a computation. -/

namespace Sys2Proof.Machine

@[simp] theorem bit_eq_toNat (c : Bool) : bit c = c.toNat := by cases c <;> rfl

theorem parityEven_iff (r : Byte) :
    parityEven r = true ↔ Even ((List.range 8).countP (fun i => r.getLsbD i)) := by
  simp [parityEven, Nat.even_iff]

/-- Flags that are the sign bit, the test for 0 and the parity of a byte are its result flags. -/
theorem resultFlags_of (r : Byte) (f : Flags) (hs : f.s = r.getLsbD 7) (hz : f.z = decide (r = 0#8))
    (hp : f.p = parityEven r) : ResultFlags r f := by
  refine ⟨?_, ?_, ?_⟩
  · rw [hz]; simp [BitVec.toNat_eq]
  · rw [hs, BitVec.getLsbD, Nat.testBit_eq_decide_div_mod_eq]; have := r.isLt; simp; omega
  · rw [hp]; exact parityEven_iff r

/-- The flags of an 8-bit result are its result flags. -/
theorem AluOut.flags_resultFlags (o : AluOut) : ResultFlags o.res o.flags := resultFlags_of _ _ rfl rfl rfl

theorem add8_toNat (cfg : Config.Params) (a b : Byte) (c : Bool) :
    (add8 cfg a b c).res.toNat = (a.toNat + b.toNat + c.toNat) % 256 := by simp [add8]

theorem add8_cy (cfg : Config.Params) (a b : Byte) (c : Bool) :
    (add8 cfg a b c).cy = true ↔ 256 ≤ a.toNat + b.toNat + c.toNat := by simp [add8]

theorem sub8_toNat (cfg : Config.Params) (a b : Byte) (c : Bool) :
    ((sub8 cfg a b c).res.toNat : Int) = ((a.toNat : Int) - b.toNat - c.toNat) % 256 := by
  simp [sub8, BitVec.toNat_ofInt]; omega

theorem sub8_cy (cfg : Config.Params) (a b : Byte) (c : Bool) :
    (sub8 cfg a b c).cy = true ↔ a.toNat < b.toNat + c.toNat := by simp [sub8]

/-- The five flags and the three X bits as one number (10_state.md R29). -/
theorem flagByte_toNat (f : Flags) (x5 x3 x1 : Bool) :
    (flagByte f x5 x3 x1).toNat = 128 * f.s.toNat + 64 * f.z.toNat + 32 * x5.toNat + 16 * f.ac.toNat +
      8 * x3.toNat + 4 * f.p.toNat + 2 * x1.toNat + f.cy.toNat := by
  obtain ⟨s, z, ac, p, cy⟩ := f
  revert s z ac p cy x5 x3 x1
  decide

/-- Every bit of the byte that `RIM` reads (47_i8085_extra.md R246). -/
theorem rimByte_bits (sid i65 i55 inte : Bool) (m : Masks) :
    (rimByte sid i65 i55 inte m).getLsbD 0 = m.m55 ∧ (rimByte sid i65 i55 inte m).getLsbD 1 = m.m65 ∧
    (rimByte sid i65 i55 inte m).getLsbD 2 = m.m75 ∧ (rimByte sid i65 i55 inte m).getLsbD 3 = inte ∧
    (rimByte sid i65 i55 inte m).getLsbD 4 = i55 ∧ (rimByte sid i65 i55 inte m).getLsbD 5 = i65 ∧
    (rimByte sid i65 i55 inte m).getLsbD 6 = m.r75 ∧ (rimByte sid i65 i55 inte m).getLsbD 7 = sid := by
  obtain ⟨m1, m2, m3, m4, m5⟩ := m
  revert sid i65 i55 inte m1 m2 m3 m4 m5
  decide

/-- The end of an accumulator operation writes `A` and the flags, nothing else. -/
theorem State.accumulate_eq (o : AluOut) (s : State) :
    s.accumulate o = { s with regs := { s.regs with a := o.res }, flags := o.flags } := rfl

/-- The end of a bitwise operation writes `A` and the flags, nothing else. -/
theorem State.logical_eq (res : Byte) (ac : Bool) (s : State) :
    s.logical res ac = { s with
      regs := { s.regs with a := res }
      flags := { s := res.getLsbD 7, z := decide (res = 0#8), ac := ac, p := parityEven res, cy := false } } := rfl

end Sys2Proof.Machine
end

