-- ==== Sys2Proof/Laws/Interrupts.lean ====
section
/-! SUPPORT. What the sampling can do. -/

namespace Sys2Proof.Machine

@[simp] theorem State.latchEdge_cfg (x : Slot) (s : State) : (s.latchEdge x).cfg = s.cfg := by
  unfold State.latchEdge; cases s.cfg.variant <;> simp only; split <;> rfl
@[simp] theorem State.latchEdge_regs (x : Slot) (s : State) : (s.latchEdge x).regs = s.regs := by
  unfold State.latchEdge; cases s.cfg.variant <;> simp only; split <;> rfl
@[simp] theorem State.latchEdge_flags (x : Slot) (s : State) : (s.latchEdge x).flags = s.flags := by
  unfold State.latchEdge; cases s.cfg.variant <;> simp only; split <;> rfl
@[simp] theorem State.latchEdge_sp (x : Slot) (s : State) : (s.latchEdge x).sp = s.sp := by
  unfold State.latchEdge; cases s.cfg.variant <;> simp only; split <;> rfl
@[simp] theorem State.latchEdge_pc (x : Slot) (s : State) : (s.latchEdge x).pc = s.pc := by
  unfold State.latchEdge; cases s.cfg.variant <;> simp only; split <;> rfl
@[simp] theorem State.latchEdge_inte (x : Slot) (s : State) : (s.latchEdge x).inte = s.inte := by
  unfold State.latchEdge; cases s.cfg.variant <;> simp only; split <;> rfl
@[simp] theorem State.latchEdge_inteLate (x : Slot) (s : State) : (s.latchEdge x).inteLate = s.inteLate := by
  unfold State.latchEdge; cases s.cfg.variant <;> simp only; split <;> rfl
@[simp] theorem State.latchEdge_eiPending (x : Slot) (s : State) : (s.latchEdge x).eiPending = s.eiPending := by
  unfold State.latchEdge; cases s.cfg.variant <;> simp only; split <;> rfl
@[simp] theorem State.latchEdge_halted (x : Slot) (s : State) : (s.latchEdge x).halted = s.halted := by
  unfold State.latchEdge; cases s.cfg.variant <;> simp only; split <;> rfl
@[simp] theorem State.latchEdge_accepted (x : Slot) (s : State) : (s.latchEdge x).accepted = s.accepted := by
  unfold State.latchEdge; cases s.cfg.variant <;> simp only; split <;> rfl
@[simp] theorem State.latchEdge_mem (x : Slot) (s : State) : (s.latchEdge x).mem = s.mem := by
  unfold State.latchEdge; cases s.cfg.variant <;> simp only; split <;> rfl
@[simp] theorem State.latchEdge_env (x : Slot) (s : State) : (s.latchEdge x).env = s.env := by
  unfold State.latchEdge; cases s.cfg.variant <;> simp only; split <;> rfl
@[simp] theorem State.latchEdge_clk (x : Slot) (s : State) : (s.latchEdge x).clk = s.clk := by
  unfold State.latchEdge; cases s.cfg.variant <;> simp only; split <;> rfl

@[simp] theorem State.endLate_cfg (s : State) : (s.endLate).cfg = s.cfg := by
  rfl
@[simp] theorem State.endLate_regs (s : State) : (s.endLate).regs = s.regs := by
  rfl
@[simp] theorem State.endLate_flags (s : State) : (s.endLate).flags = s.flags := by
  rfl
@[simp] theorem State.endLate_sp (s : State) : (s.endLate).sp = s.sp := by
  rfl
@[simp] theorem State.endLate_pc (s : State) : (s.endLate).pc = s.pc := by
  rfl
@[simp] theorem State.endLate_inte (s : State) : (s.endLate).inte = s.inte := by
  rfl
@[simp] theorem State.endLate_eiPending (s : State) : (s.endLate).eiPending = s.eiPending := by
  rfl
@[simp] theorem State.endLate_halted (s : State) : (s.endLate).halted = s.halted := by
  rfl
@[simp] theorem State.endLate_masks (s : State) : (s.endLate).masks = s.masks := by
  rfl
@[simp] theorem State.endLate_accepted (s : State) : (s.endLate).accepted = s.accepted := by
  rfl
@[simp] theorem State.endLate_mem (s : State) : (s.endLate).mem = s.mem := by
  rfl
@[simp] theorem State.endLate_env (s : State) : (s.endLate).env = s.env := by
  rfl
@[simp] theorem State.endLate_clk (s : State) : (s.endLate).clk = s.clk := by
  rfl

@[simp] theorem State.endLate_inteLate (s : State) : s.endLate.inteLate = false := rfl

/-- All that the decision can be: `TRAP` accepted, the delay counted down, an enabled request accepted, or nothing. -/
theorem State.decideEntry_cases (x : Slot) (s : State) :
    (s.trapRequest x = true ∧ s.decideEntry x = s.setAccepted (some (.restart .trap))) ∨
    (s.trapRequest x = false ∧ 0 < s.eiPending ∧ s.decideEntry x = s.setEnable s.inte s.inteLate (s.eiPending - 1)) ∨
    (s.trapRequest x = false ∧ s.eiPending = 0 ∧ s.enabled = true ∧
      ∃ e, s.maskableRequest x = some e ∧ s.decideEntry x = s.setAccepted (some e)) ∨
    (s.trapRequest x = false ∧ s.eiPending = 0 ∧ (s.enabled = true → s.maskableRequest x = none) ∧
      s.decideEntry x = s) := by
  unfold State.decideEntry
  by_cases ht : s.trapRequest x = true
  · simp [ht]
  · have ht : s.trapRequest x = false := by simpa using ht
    by_cases hp : 0 < s.eiPending
    · simp [ht, hp]
    · have hp0 : s.eiPending = 0 := by omega
      by_cases he : s.enabled = true
      · cases hm : s.maskableRequest x <;> simp [ht, hp0, he]
      · simp [ht, hp0, he]

@[simp] theorem State.decideEntry_cfg (x : Slot) (s : State) : (s.decideEntry x).cfg = s.cfg := by
  rcases s.decideEntry_cases x with ⟨-, h⟩ | ⟨-, -, h⟩ | ⟨-, -, -, e, -, h⟩ | ⟨-, -, -, h⟩ <;> rw [h] <;> rfl
@[simp] theorem State.decideEntry_regs (x : Slot) (s : State) : (s.decideEntry x).regs = s.regs := by
  rcases s.decideEntry_cases x with ⟨-, h⟩ | ⟨-, -, h⟩ | ⟨-, -, -, e, -, h⟩ | ⟨-, -, -, h⟩ <;> rw [h] <;> rfl
@[simp] theorem State.decideEntry_flags (x : Slot) (s : State) : (s.decideEntry x).flags = s.flags := by
  rcases s.decideEntry_cases x with ⟨-, h⟩ | ⟨-, -, h⟩ | ⟨-, -, -, e, -, h⟩ | ⟨-, -, -, h⟩ <;> rw [h] <;> rfl
@[simp] theorem State.decideEntry_sp (x : Slot) (s : State) : (s.decideEntry x).sp = s.sp := by
  rcases s.decideEntry_cases x with ⟨-, h⟩ | ⟨-, -, h⟩ | ⟨-, -, -, e, -, h⟩ | ⟨-, -, -, h⟩ <;> rw [h] <;> rfl
@[simp] theorem State.decideEntry_pc (x : Slot) (s : State) : (s.decideEntry x).pc = s.pc := by
  rcases s.decideEntry_cases x with ⟨-, h⟩ | ⟨-, -, h⟩ | ⟨-, -, -, e, -, h⟩ | ⟨-, -, -, h⟩ <;> rw [h] <;> rfl
@[simp] theorem State.decideEntry_inte (x : Slot) (s : State) : (s.decideEntry x).inte = s.inte := by
  rcases s.decideEntry_cases x with ⟨-, h⟩ | ⟨-, -, h⟩ | ⟨-, -, -, e, -, h⟩ | ⟨-, -, -, h⟩ <;> rw [h] <;> rfl
@[simp] theorem State.decideEntry_inteLate (x : Slot) (s : State) : (s.decideEntry x).inteLate = s.inteLate := by
  rcases s.decideEntry_cases x with ⟨-, h⟩ | ⟨-, -, h⟩ | ⟨-, -, -, e, -, h⟩ | ⟨-, -, -, h⟩ <;> rw [h] <;> rfl
@[simp] theorem State.decideEntry_halted (x : Slot) (s : State) : (s.decideEntry x).halted = s.halted := by
  rcases s.decideEntry_cases x with ⟨-, h⟩ | ⟨-, -, h⟩ | ⟨-, -, -, e, -, h⟩ | ⟨-, -, -, h⟩ <;> rw [h] <;> rfl
@[simp] theorem State.decideEntry_masks (x : Slot) (s : State) : (s.decideEntry x).masks = s.masks := by
  rcases s.decideEntry_cases x with ⟨-, h⟩ | ⟨-, -, h⟩ | ⟨-, -, -, e, -, h⟩ | ⟨-, -, -, h⟩ <;> rw [h] <;> rfl
@[simp] theorem State.decideEntry_mem (x : Slot) (s : State) : (s.decideEntry x).mem = s.mem := by
  rcases s.decideEntry_cases x with ⟨-, h⟩ | ⟨-, -, h⟩ | ⟨-, -, -, e, -, h⟩ | ⟨-, -, -, h⟩ <;> rw [h] <;> rfl
@[simp] theorem State.decideEntry_env (x : Slot) (s : State) : (s.decideEntry x).env = s.env := by
  rcases s.decideEntry_cases x with ⟨-, h⟩ | ⟨-, -, h⟩ | ⟨-, -, -, e, -, h⟩ | ⟨-, -, -, h⟩ <;> rw [h] <;> rfl
@[simp] theorem State.decideEntry_clk (x : Slot) (s : State) : (s.decideEntry x).clk = s.clk := by
  rcases s.decideEntry_cases x with ⟨-, h⟩ | ⟨-, -, h⟩ | ⟨-, -, -, e, -, h⟩ | ⟨-, -, -, h⟩ <;> rw [h] <;> rfl

/-- What the sampling keeps whatever it does. -/
@[simp] theorem State.sample_cfg (s : State) : (s.sample).cfg = s.cfg := by
  unfold State.sample; simp only; split <;> simp
@[simp] theorem State.sample_regs (s : State) : (s.sample).regs = s.regs := by
  unfold State.sample; simp only; split <;> simp
@[simp] theorem State.sample_flags (s : State) : (s.sample).flags = s.flags := by
  unfold State.sample; simp only; split <;> simp
@[simp] theorem State.sample_sp (s : State) : (s.sample).sp = s.sp := by
  unfold State.sample; simp only; split <;> simp
@[simp] theorem State.sample_mem (s : State) : (s.sample).mem = s.mem := by
  unfold State.sample; simp only; split <;> simp
@[simp] theorem State.sample_clk (s : State) : (s.sample).clk = s.clk := by
  unfold State.sample; simp only; split <;> simp

@[simp] theorem State.sample_inteLate (s : State) : s.sample.inteLate = false := by
  unfold State.sample
  simp only
  split
  · unfold State.resetInput; cases s.dropSlot.cfg.variant <;> simp
  · rfl

/-- Without RESET the sampling does not move the program counter. -/
theorem State.sample_pc (s : State) (h : s.nextSlot.reset = false) : s.sample.pc = s.pc := by
  simp [State.sample, h]

end Sys2Proof.Machine
end

