-- ==== Sys2Proof/Laws/Operands.lean ====
section
/-! SUPPORT. What the operand accessors of Machine/Operands.lean and the flag byte of Machine/Flags.lean can do. -/

namespace Sys2Proof.Machine

/-! ### Reading an 8-bit operand -/

/-- A register operand is read without any change of state. -/
theorem readReg_register (r : Reg) (s : State) (h : r ≠ .m) : (readReg r s).2 = s := by
  cases r <;> first | rfl | exact absurd rfl h

@[simp] theorem readReg_cfg (r : Reg) (s : State) : ((readReg r s).2).cfg = s.cfg := by
  cases r <;> simp [readReg]
@[simp] theorem readReg_regs (r : Reg) (s : State) : ((readReg r s).2).regs = s.regs := by
  cases r <;> simp [readReg]
@[simp] theorem readReg_flags (r : Reg) (s : State) : ((readReg r s).2).flags = s.flags := by
  cases r <;> simp [readReg]
@[simp] theorem readReg_sp (r : Reg) (s : State) : ((readReg r s).2).sp = s.sp := by
  cases r <;> simp [readReg]
@[simp] theorem readReg_pc (r : Reg) (s : State) : ((readReg r s).2).pc = s.pc := by
  cases r <;> simp [readReg]
@[simp] theorem readReg_inte (r : Reg) (s : State) : ((readReg r s).2).inte = s.inte := by
  cases r <;> simp [readReg]
@[simp] theorem readReg_inteLate (r : Reg) (s : State) : ((readReg r s).2).inteLate = s.inteLate := by
  cases r <;> simp [readReg]
@[simp] theorem readReg_eiPending (r : Reg) (s : State) : ((readReg r s).2).eiPending = s.eiPending := by
  cases r <;> simp [readReg]
@[simp] theorem readReg_halted (r : Reg) (s : State) : ((readReg r s).2).halted = s.halted := by
  cases r <;> simp [readReg]
@[simp] theorem readReg_masks (r : Reg) (s : State) : ((readReg r s).2).masks = s.masks := by
  cases r <;> simp [readReg]
@[simp] theorem readReg_accepted (r : Reg) (s : State) : ((readReg r s).2).accepted = s.accepted := by
  cases r <;> simp [readReg]
@[simp] theorem readReg_mem (r : Reg) (s : State) : ((readReg r s).2).mem = s.mem := by
  cases r <;> simp [readReg]
@[simp] theorem readReg_clk (r : Reg) (s : State) : ((readReg r s).2).clk = s.clk := by
  cases r <;> simp [readReg]

@[simp] theorem readReg_slots (r : Reg) (s : State) : (readReg r s).2.env.slots = s.env.slots := by
  cases r <;> simp [readReg]
@[simp] theorem readReg_inputs (r : Reg) (s : State) : (readReg r s).2.env.inputs = s.env.inputs := by
  cases r <;> simp [readReg]

theorem readReg_history (r : Reg) (s : State) : s.env.history <+: (readReg r s).2.env.history := by
  cases r <;> simp [readReg, State.memRead_history]

/-- The value of a register operand depends on the registers only. -/
theorem readReg_value_congr (r : Reg) (s t : State) (h : r ≠ .m) (hr : t.regs = s.regs) :
    (readReg r t).1 = (readReg r s).1 := by
  cases r <;> first | exact absurd rfl h | simp [readReg, hr]

/-! ### Writing an 8-bit operand -/

@[simp] theorem writeReg_cfg (r : Reg) (v : Byte) (s : State) : (writeReg r v s).cfg = s.cfg := by
  cases r <;> simp [writeReg]
@[simp] theorem writeReg_flags (r : Reg) (v : Byte) (s : State) : (writeReg r v s).flags = s.flags := by
  cases r <;> simp [writeReg]
@[simp] theorem writeReg_sp (r : Reg) (v : Byte) (s : State) : (writeReg r v s).sp = s.sp := by
  cases r <;> simp [writeReg]
@[simp] theorem writeReg_pc (r : Reg) (v : Byte) (s : State) : (writeReg r v s).pc = s.pc := by
  cases r <;> simp [writeReg]
@[simp] theorem writeReg_inte (r : Reg) (v : Byte) (s : State) : (writeReg r v s).inte = s.inte := by
  cases r <;> simp [writeReg]
@[simp] theorem writeReg_inteLate (r : Reg) (v : Byte) (s : State) : (writeReg r v s).inteLate = s.inteLate := by
  cases r <;> simp [writeReg]
@[simp] theorem writeReg_eiPending (r : Reg) (v : Byte) (s : State) : (writeReg r v s).eiPending = s.eiPending := by
  cases r <;> simp [writeReg]
@[simp] theorem writeReg_halted (r : Reg) (v : Byte) (s : State) : (writeReg r v s).halted = s.halted := by
  cases r <;> simp [writeReg]
@[simp] theorem writeReg_masks (r : Reg) (v : Byte) (s : State) : (writeReg r v s).masks = s.masks := by
  cases r <;> simp [writeReg]
@[simp] theorem writeReg_accepted (r : Reg) (v : Byte) (s : State) : (writeReg r v s).accepted = s.accepted := by
  cases r <;> simp [writeReg]
@[simp] theorem writeReg_clk (r : Reg) (v : Byte) (s : State) : (writeReg r v s).clk = s.clk := by
  cases r <;> simp [writeReg]

/-- A register operand is written without any change but of the registers. -/
theorem writeReg_register (r : Reg) (v : Byte) (s : State) (h : r ≠ .m) :
    writeReg r v s = s.setRegs (writeReg r v s).regs := by
  cases r <;> first | rfl | exact absurd rfl h

@[simp] theorem writeReg_m (v : Byte) (s : State) : writeReg .m v s = s.memWrite s.hl v := rfl

/-- A register written reads as written. -/
theorem readReg_writeReg_same (r : Reg) (v : Byte) (s : State) (h : r ≠ .m) :
    (readReg r (writeReg r v s)).1 = v := by
  cases r <;> first | rfl | exact absurd rfl h

/-- The other registers keep their values. -/
theorem readReg_writeReg_other (r q : Reg) (v : Byte) (s : State) (hq : q ≠ .m) (h : q ≠ r) :
    (readReg q (writeReg r v s)).1 = (readReg q s).1 := by
  cases r <;> cases q <;> first | exact absurd rfl h | exact absurd rfl hq | simp [readReg, writeReg]

theorem writeReg_wf (r : Reg) (v : Byte) (s : State) (h : s.mem.wf = true) : (writeReg r v s).mem.wf = true := by
  cases r <;> first | exact State.memWrite_wf _ _ _ h | exact h

theorem writeReg_history (r : Reg) (v : Byte) (s : State) : s.env.history <+: (writeReg r v s).env.history := by
  cases r <;> simp only [writeReg, State.setRegs_env, List.prefix_rfl, State.memWrite_history]

@[simp] theorem writeReg_slots (r : Reg) (v : Byte) (s : State) : (writeReg r v s).env.slots = s.env.slots := by
  cases r <;> simp only [writeReg, State.setRegs_env, State.memWrite_env]
  split <;> rfl

/-! ### Pairs -/

@[simp] theorem writePair_cfg (p : RegPair) (w : Word) (s : State) : (writePair p w s).cfg = s.cfg := by
  cases p <;> rfl
@[simp] theorem writePair_flags (p : RegPair) (w : Word) (s : State) : (writePair p w s).flags = s.flags := by
  cases p <;> rfl
@[simp] theorem writePair_pc (p : RegPair) (w : Word) (s : State) : (writePair p w s).pc = s.pc := by
  cases p <;> rfl
@[simp] theorem writePair_inte (p : RegPair) (w : Word) (s : State) : (writePair p w s).inte = s.inte := by
  cases p <;> rfl
@[simp] theorem writePair_inteLate (p : RegPair) (w : Word) (s : State) : (writePair p w s).inteLate = s.inteLate := by
  cases p <;> rfl
@[simp] theorem writePair_eiPending (p : RegPair) (w : Word) (s : State) : (writePair p w s).eiPending = s.eiPending := by
  cases p <;> rfl
@[simp] theorem writePair_halted (p : RegPair) (w : Word) (s : State) : (writePair p w s).halted = s.halted := by
  cases p <;> rfl
@[simp] theorem writePair_masks (p : RegPair) (w : Word) (s : State) : (writePair p w s).masks = s.masks := by
  cases p <;> rfl
@[simp] theorem writePair_accepted (p : RegPair) (w : Word) (s : State) : (writePair p w s).accepted = s.accepted := by
  cases p <;> rfl
@[simp] theorem writePair_mem (p : RegPair) (w : Word) (s : State) : (writePair p w s).mem = s.mem := by
  cases p <;> rfl
@[simp] theorem writePair_env (p : RegPair) (w : Word) (s : State) : (writePair p w s).env = s.env := by
  cases p <;> rfl
@[simp] theorem writePair_clk (p : RegPair) (w : Word) (s : State) : (writePair p w s).clk = s.clk := by
  cases p <;> rfl

theorem toNat_le16 (lo hi : Byte) : (le16 lo hi).toNat = 256 * hi.toNat + lo.toNat := by
  have h : (le16 lo hi).toNat = hi.toNat <<< 8 ||| lo.toNat := BitVec.toNat_append hi lo
  rw [h, ← Nat.shiftLeft_add_eq_or_of_lt lo.isLt, Nat.shiftLeft_eq]
  omega

theorem toNat_hiByte (w : Word) : (hiByte w).toNat = w.toNat / 256 := by
  have := w.isLt
  simp only [hiByte, BitVec.extractLsb'_toNat, Nat.shiftRight_eq_div_pow]
  omega

theorem toNat_loByte (w : Word) : (loByte w).toNat = w.toNat % 256 := by
  simp [loByte, BitVec.extractLsb'_toNat]

/-- The value with given bytes has these bytes, and is made of its own. -/
@[simp] theorem hiByte_le16 (lo hi : Byte) : hiByte (le16 lo hi) = hi := by
  apply BitVec.eq_of_toNat_eq
  rw [toNat_hiByte, toNat_le16]
  have := lo.isLt
  omega
@[simp] theorem loByte_le16 (lo hi : Byte) : loByte (le16 lo hi) = lo := by
  apply BitVec.eq_of_toNat_eq
  rw [toNat_loByte, toNat_le16]
  have := lo.isLt
  omega
@[simp] theorem le16_bytes (w : Word) : le16 (loByte w) (hiByte w) = w := by
  apply BitVec.eq_of_toNat_eq
  rw [toNat_le16, toNat_hiByte, toNat_loByte]
  omega

/-- A pair written reads as written. -/
theorem readPair_writePair (p : RegPair) (w : Word) (s : State) : readPair p (writePair p w s) = w := by
  cases p <;> simp [readPair, writePair, State.bc, State.de, State.hl]

/-! ### The flag byte -/

@[simp] theorem State.flagByteOut_cfg (s : State) : (s.flagByteOut.2).cfg = s.cfg := by
  unfold State.flagByteOut; cases s.cfg.fxBits <;> rfl
@[simp] theorem State.flagByteOut_regs (s : State) : (s.flagByteOut.2).regs = s.regs := by
  unfold State.flagByteOut; cases s.cfg.fxBits <;> rfl
@[simp] theorem State.flagByteOut_flags (s : State) : (s.flagByteOut.2).flags = s.flags := by
  unfold State.flagByteOut; cases s.cfg.fxBits <;> rfl
@[simp] theorem State.flagByteOut_sp (s : State) : (s.flagByteOut.2).sp = s.sp := by
  unfold State.flagByteOut; cases s.cfg.fxBits <;> rfl
@[simp] theorem State.flagByteOut_pc (s : State) : (s.flagByteOut.2).pc = s.pc := by
  unfold State.flagByteOut; cases s.cfg.fxBits <;> rfl
@[simp] theorem State.flagByteOut_inte (s : State) : (s.flagByteOut.2).inte = s.inte := by
  unfold State.flagByteOut; cases s.cfg.fxBits <;> rfl
@[simp] theorem State.flagByteOut_inteLate (s : State) : (s.flagByteOut.2).inteLate = s.inteLate := by
  unfold State.flagByteOut; cases s.cfg.fxBits <;> rfl
@[simp] theorem State.flagByteOut_eiPending (s : State) : (s.flagByteOut.2).eiPending = s.eiPending := by
  unfold State.flagByteOut; cases s.cfg.fxBits <;> rfl
@[simp] theorem State.flagByteOut_halted (s : State) : (s.flagByteOut.2).halted = s.halted := by
  unfold State.flagByteOut; cases s.cfg.fxBits <;> rfl
@[simp] theorem State.flagByteOut_masks (s : State) : (s.flagByteOut.2).masks = s.masks := by
  unfold State.flagByteOut; cases s.cfg.fxBits <;> rfl
@[simp] theorem State.flagByteOut_accepted (s : State) : (s.flagByteOut.2).accepted = s.accepted := by
  unfold State.flagByteOut; cases s.cfg.fxBits <;> rfl
@[simp] theorem State.flagByteOut_mem (s : State) : (s.flagByteOut.2).mem = s.mem := by
  unfold State.flagByteOut; cases s.cfg.fxBits <;> rfl
@[simp] theorem State.flagByteOut_clk (s : State) : (s.flagByteOut.2).clk = s.clk := by
  unfold State.flagByteOut; cases s.cfg.fxBits <;> rfl

@[simp] theorem State.flagByteOut_slots (s : State) : s.flagByteOut.2.env.slots = s.env.slots := by
  unfold State.flagByteOut; cases s.cfg.fxBits <;> rfl

@[simp] theorem State.flagByteOut_history (s : State) : s.flagByteOut.2.env.history = s.env.history := by
  unfold State.flagByteOut; cases s.cfg.fxBits <;> rfl

/-- The flags come back from the flag byte, whatever the X bits are. -/
@[simp] theorem flagsOfByte_flagByte (f : Flags) (x5 x3 x1 : Bool) : flagsOfByte (flagByte f x5 x3 x1) = f := by
  obtain ⟨s, z, ac, p, cy⟩ := f
  revert s z ac p cy x5 x3 x1
  decide

end Sys2Proof.Machine
end

