-- ==== Sys2Proof/Laws/PerInstr.lean ====
section
/-! SUPPORT. One lemma for each instruction: its encoding is as long as its opcode says (30_encoding.md R81). -/

namespace Sys2Proof.Laws

/-- The bytes of an instruction are one to three, and their number is the length that the opcode alone gives (R81). -/
def EncodedLength.Statement (i : Instr) : Prop :=
  ∃ op rest, encode i = op :: rest ∧ opLength op = rest.length + 1 ∧ rest.length ≤ 2

theorem EncodedLength.mov (dst : Reg) (src : Reg) :
    EncodedLength.Statement (.mov dst src) := by
  cases dst <;> cases src <;> exact ⟨_, _, rfl, rfl, by simp⟩

theorem EncodedLength.mvi (dst : Reg) (v : Byte) :
    EncodedLength.Statement (.mvi dst v) := by
  cases dst <;> exact ⟨_, _, rfl, rfl, by simp⟩

theorem EncodedLength.lxi (p : RegPair) (v : Word) :
    EncodedLength.Statement (.lxi p v) := by
  cases p <;> exact ⟨_, _, rfl, rfl, by simp⟩

theorem EncodedLength.lda (addr : Word) :
    EncodedLength.Statement (.lda addr) := ⟨_, _, rfl, (by rfl), (by simp)⟩

theorem EncodedLength.sta (addr : Word) :
    EncodedLength.Statement (.sta addr) := ⟨_, _, rfl, (by rfl), (by simp)⟩

theorem EncodedLength.lhld (addr : Word) :
    EncodedLength.Statement (.lhld addr) := ⟨_, _, rfl, (by rfl), (by simp)⟩

theorem EncodedLength.shld (addr : Word) :
    EncodedLength.Statement (.shld addr) := ⟨_, _, rfl, (by rfl), (by simp)⟩

theorem EncodedLength.ldax (p : IndexPair) :
    EncodedLength.Statement (.ldax p) := by
  cases p <;> exact ⟨_, _, rfl, rfl, by simp⟩

theorem EncodedLength.stax (p : IndexPair) :
    EncodedLength.Statement (.stax p) := by
  cases p <;> exact ⟨_, _, rfl, rfl, by simp⟩

theorem EncodedLength.xchg :
    EncodedLength.Statement (.xchg) := ⟨_, _, rfl, (by decide), (by decide)⟩

theorem EncodedLength.add (r : Reg) :
    EncodedLength.Statement (.add r) := by
  cases r <;> exact ⟨_, _, rfl, rfl, by simp⟩

theorem EncodedLength.adi (v : Byte) :
    EncodedLength.Statement (.adi v) := ⟨_, _, rfl, (by rfl), (by simp)⟩

theorem EncodedLength.adc (r : Reg) :
    EncodedLength.Statement (.adc r) := by
  cases r <;> exact ⟨_, _, rfl, rfl, by simp⟩

theorem EncodedLength.aci (v : Byte) :
    EncodedLength.Statement (.aci v) := ⟨_, _, rfl, (by rfl), (by simp)⟩

theorem EncodedLength.sub (r : Reg) :
    EncodedLength.Statement (.sub r) := by
  cases r <;> exact ⟨_, _, rfl, rfl, by simp⟩

theorem EncodedLength.sui (v : Byte) :
    EncodedLength.Statement (.sui v) := ⟨_, _, rfl, (by rfl), (by simp)⟩

theorem EncodedLength.sbb (r : Reg) :
    EncodedLength.Statement (.sbb r) := by
  cases r <;> exact ⟨_, _, rfl, rfl, by simp⟩

theorem EncodedLength.sbi (v : Byte) :
    EncodedLength.Statement (.sbi v) := ⟨_, _, rfl, (by rfl), (by simp)⟩

theorem EncodedLength.inr (r : Reg) :
    EncodedLength.Statement (.inr r) := by
  cases r <;> exact ⟨_, _, rfl, rfl, by simp⟩

theorem EncodedLength.dcr (r : Reg) :
    EncodedLength.Statement (.dcr r) := by
  cases r <;> exact ⟨_, _, rfl, rfl, by simp⟩

theorem EncodedLength.inx (p : RegPair) :
    EncodedLength.Statement (.inx p) := by
  cases p <;> exact ⟨_, _, rfl, rfl, by simp⟩

theorem EncodedLength.dcx (p : RegPair) :
    EncodedLength.Statement (.dcx p) := by
  cases p <;> exact ⟨_, _, rfl, rfl, by simp⟩

theorem EncodedLength.dad (p : RegPair) :
    EncodedLength.Statement (.dad p) := by
  cases p <;> exact ⟨_, _, rfl, rfl, by simp⟩

theorem EncodedLength.daa :
    EncodedLength.Statement (.daa) := ⟨_, _, rfl, (by decide), (by decide)⟩

theorem EncodedLength.ana (r : Reg) :
    EncodedLength.Statement (.ana r) := by
  cases r <;> exact ⟨_, _, rfl, rfl, by simp⟩

theorem EncodedLength.ani (v : Byte) :
    EncodedLength.Statement (.ani v) := ⟨_, _, rfl, (by rfl), (by simp)⟩

theorem EncodedLength.xra (r : Reg) :
    EncodedLength.Statement (.xra r) := by
  cases r <;> exact ⟨_, _, rfl, rfl, by simp⟩

theorem EncodedLength.xri (v : Byte) :
    EncodedLength.Statement (.xri v) := ⟨_, _, rfl, (by rfl), (by simp)⟩

theorem EncodedLength.ora (r : Reg) :
    EncodedLength.Statement (.ora r) := by
  cases r <;> exact ⟨_, _, rfl, rfl, by simp⟩

theorem EncodedLength.ori (v : Byte) :
    EncodedLength.Statement (.ori v) := ⟨_, _, rfl, (by rfl), (by simp)⟩

theorem EncodedLength.cmp (r : Reg) :
    EncodedLength.Statement (.cmp r) := by
  cases r <;> exact ⟨_, _, rfl, rfl, by simp⟩

theorem EncodedLength.cpi (v : Byte) :
    EncodedLength.Statement (.cpi v) := ⟨_, _, rfl, (by rfl), (by simp)⟩

theorem EncodedLength.rlc :
    EncodedLength.Statement (.rlc) := ⟨_, _, rfl, (by decide), (by decide)⟩

theorem EncodedLength.rrc :
    EncodedLength.Statement (.rrc) := ⟨_, _, rfl, (by decide), (by decide)⟩

theorem EncodedLength.ral :
    EncodedLength.Statement (.ral) := ⟨_, _, rfl, (by decide), (by decide)⟩

theorem EncodedLength.rar :
    EncodedLength.Statement (.rar) := ⟨_, _, rfl, (by decide), (by decide)⟩

theorem EncodedLength.cma :
    EncodedLength.Statement (.cma) := ⟨_, _, rfl, (by decide), (by decide)⟩

theorem EncodedLength.cmc :
    EncodedLength.Statement (.cmc) := ⟨_, _, rfl, (by decide), (by decide)⟩

theorem EncodedLength.stc :
    EncodedLength.Statement (.stc) := ⟨_, _, rfl, (by decide), (by decide)⟩

theorem EncodedLength.jmp (addr : Word) :
    EncodedLength.Statement (.jmp addr) := ⟨_, _, rfl, (by rfl), (by simp)⟩

theorem EncodedLength.jnz (addr : Word) :
    EncodedLength.Statement (.jnz addr) := ⟨_, _, rfl, (by rfl), (by simp)⟩

theorem EncodedLength.jz (addr : Word) :
    EncodedLength.Statement (.jz addr) := ⟨_, _, rfl, (by rfl), (by simp)⟩

theorem EncodedLength.jnc (addr : Word) :
    EncodedLength.Statement (.jnc addr) := ⟨_, _, rfl, (by rfl), (by simp)⟩

theorem EncodedLength.jc (addr : Word) :
    EncodedLength.Statement (.jc addr) := ⟨_, _, rfl, (by rfl), (by simp)⟩

theorem EncodedLength.jpo (addr : Word) :
    EncodedLength.Statement (.jpo addr) := ⟨_, _, rfl, (by rfl), (by simp)⟩

theorem EncodedLength.jpe (addr : Word) :
    EncodedLength.Statement (.jpe addr) := ⟨_, _, rfl, (by rfl), (by simp)⟩

theorem EncodedLength.jp (addr : Word) :
    EncodedLength.Statement (.jp addr) := ⟨_, _, rfl, (by rfl), (by simp)⟩

theorem EncodedLength.jm (addr : Word) :
    EncodedLength.Statement (.jm addr) := ⟨_, _, rfl, (by rfl), (by simp)⟩

theorem EncodedLength.call (addr : Word) :
    EncodedLength.Statement (.call addr) := ⟨_, _, rfl, (by rfl), (by simp)⟩

theorem EncodedLength.cnz (addr : Word) :
    EncodedLength.Statement (.cnz addr) := ⟨_, _, rfl, (by rfl), (by simp)⟩

theorem EncodedLength.cz (addr : Word) :
    EncodedLength.Statement (.cz addr) := ⟨_, _, rfl, (by rfl), (by simp)⟩

theorem EncodedLength.cnc (addr : Word) :
    EncodedLength.Statement (.cnc addr) := ⟨_, _, rfl, (by rfl), (by simp)⟩

theorem EncodedLength.cc (addr : Word) :
    EncodedLength.Statement (.cc addr) := ⟨_, _, rfl, (by rfl), (by simp)⟩

theorem EncodedLength.cpo (addr : Word) :
    EncodedLength.Statement (.cpo addr) := ⟨_, _, rfl, (by rfl), (by simp)⟩

theorem EncodedLength.cpe (addr : Word) :
    EncodedLength.Statement (.cpe addr) := ⟨_, _, rfl, (by rfl), (by simp)⟩

theorem EncodedLength.cp (addr : Word) :
    EncodedLength.Statement (.cp addr) := ⟨_, _, rfl, (by rfl), (by simp)⟩

theorem EncodedLength.cm (addr : Word) :
    EncodedLength.Statement (.cm addr) := ⟨_, _, rfl, (by rfl), (by simp)⟩

theorem EncodedLength.ret :
    EncodedLength.Statement (.ret) := ⟨_, _, rfl, (by decide), (by decide)⟩

theorem EncodedLength.rnz :
    EncodedLength.Statement (.rnz) := ⟨_, _, rfl, (by decide), (by decide)⟩

theorem EncodedLength.rz :
    EncodedLength.Statement (.rz) := ⟨_, _, rfl, (by decide), (by decide)⟩

theorem EncodedLength.rnc :
    EncodedLength.Statement (.rnc) := ⟨_, _, rfl, (by decide), (by decide)⟩

theorem EncodedLength.rc :
    EncodedLength.Statement (.rc) := ⟨_, _, rfl, (by decide), (by decide)⟩

theorem EncodedLength.rpo :
    EncodedLength.Statement (.rpo) := ⟨_, _, rfl, (by decide), (by decide)⟩

theorem EncodedLength.rpe :
    EncodedLength.Statement (.rpe) := ⟨_, _, rfl, (by decide), (by decide)⟩

theorem EncodedLength.rp :
    EncodedLength.Statement (.rp) := ⟨_, _, rfl, (by decide), (by decide)⟩

theorem EncodedLength.rm :
    EncodedLength.Statement (.rm) := ⟨_, _, rfl, (by decide), (by decide)⟩

theorem EncodedLength.rst (n : BitVec 3) :
    EncodedLength.Statement (.rst n) := ⟨_, _, rfl, (by revert n; decide), (by simp)⟩

theorem EncodedLength.pchl :
    EncodedLength.Statement (.pchl) := ⟨_, _, rfl, (by decide), (by decide)⟩

theorem EncodedLength.push (p : StackPair) :
    EncodedLength.Statement (.push p) := by
  cases p <;> exact ⟨_, _, rfl, rfl, by simp⟩

theorem EncodedLength.pop (p : StackPair) :
    EncodedLength.Statement (.pop p) := by
  cases p <;> exact ⟨_, _, rfl, rfl, by simp⟩

theorem EncodedLength.xthl :
    EncodedLength.Statement (.xthl) := ⟨_, _, rfl, (by decide), (by decide)⟩

theorem EncodedLength.sphl :
    EncodedLength.Statement (.sphl) := ⟨_, _, rfl, (by decide), (by decide)⟩

theorem EncodedLength.inPort (port : Byte) :
    EncodedLength.Statement (.inPort port) := ⟨_, _, rfl, (by rfl), (by simp)⟩

theorem EncodedLength.outPort (port : Byte) :
    EncodedLength.Statement (.outPort port) := ⟨_, _, rfl, (by rfl), (by simp)⟩

theorem EncodedLength.ei :
    EncodedLength.Statement (.ei) := ⟨_, _, rfl, (by decide), (by decide)⟩

theorem EncodedLength.di :
    EncodedLength.Statement (.di) := ⟨_, _, rfl, (by decide), (by decide)⟩

theorem EncodedLength.hlt :
    EncodedLength.Statement (.hlt) := ⟨_, _, rfl, (by decide), (by decide)⟩

theorem EncodedLength.nop :
    EncodedLength.Statement (.nop) := ⟨_, _, rfl, (by decide), (by decide)⟩

theorem EncodedLength.sim :
    EncodedLength.Statement (.sim) := ⟨_, _, rfl, (by decide), (by decide)⟩

theorem EncodedLength.rim :
    EncodedLength.Statement (.rim) := ⟨_, _, rfl, (by decide), (by decide)⟩

theorem EncodedLength.unused08 :
    EncodedLength.Statement (.unused08) := ⟨_, _, rfl, (by decide), (by decide)⟩

theorem EncodedLength.unused10 :
    EncodedLength.Statement (.unused10) := ⟨_, _, rfl, (by decide), (by decide)⟩

theorem EncodedLength.unused18 :
    EncodedLength.Statement (.unused18) := ⟨_, _, rfl, (by decide), (by decide)⟩

theorem EncodedLength.unused28 :
    EncodedLength.Statement (.unused28) := ⟨_, _, rfl, (by decide), (by decide)⟩

theorem EncodedLength.unused38 :
    EncodedLength.Statement (.unused38) := ⟨_, _, rfl, (by decide), (by decide)⟩

theorem EncodedLength.unusedCB (addr : Word) :
    EncodedLength.Statement (.unusedCB addr) := ⟨_, _, rfl, (by rfl), (by simp)⟩

theorem EncodedLength.unusedD9 :
    EncodedLength.Statement (.unusedD9) := ⟨_, _, rfl, (by decide), (by decide)⟩

theorem EncodedLength.unusedDD (addr : Word) :
    EncodedLength.Statement (.unusedDD addr) := ⟨_, _, rfl, (by rfl), (by simp)⟩

theorem EncodedLength.unusedED (addr : Word) :
    EncodedLength.Statement (.unusedED addr) := ⟨_, _, rfl, (by rfl), (by simp)⟩

theorem EncodedLength.unusedFD (addr : Word) :
    EncodedLength.Statement (.unusedFD addr) := ⟨_, _, rfl, (by rfl), (by simp)⟩

theorem EncodedLength.unused20 :
    EncodedLength.Statement (.unused20) := ⟨_, _, rfl, (by decide), (by decide)⟩

theorem EncodedLength.unused30 :
    EncodedLength.Statement (.unused30) := ⟨_, _, rfl, (by decide), (by decide)⟩

end Sys2Proof.Laws
end

