-- ==== Sys2Proof/Laws/Stores.lean ====
section
/-! SUPPORT. What two stores, a push and a push of `PC` with a jump leave, in the terms of Safety.lean. -/

namespace Sys2Proof.Machine

/-- Two stores one after the other. -/
theorem State.memWrite_memWrite_stored (s : State) (a b : Word) (v w : Byte) :
    Stored s ((s.memWrite a v).memWrite b w) [(a, v), (b, w)] := by
  refine ⟨by apply State.ext <;> simp, ?_, ?_⟩
  · rw [State.memWrite_env, State.memWrite_env]
    simp only [State.writeEvents, List.flatMap_cons, List.flatMap_nil, List.append_nil, State.memWrite_kindAt]
    split <;> split <;> simp
  · intro x
    rw [State.memWrite_byteAt, State.memWrite_byteAt]
    have at_ (y : Word) : (x = y ∧ s.kindAt y = .ram) = (x = y ∧ s.kindAt x = .ram) := by
      by_cases h : x = y <;> simp [h]
    simp only [List.foldl_cons, List.foldl_nil, State.memWrite_kindAt, at_]

/-- A push stores the high byte below `SP`, then the low byte below it, and moves `SP` down by 2. -/
theorem State.pushBytes_stored (s : State) (hi lo : Byte) :
    Stored { s with sp := s.sp - 2#16 } (s.pushBytes hi lo) [(s.sp - 1#16, hi), (s.sp - 2#16, lo)] := by
  obtain ⟨-, h2, h3⟩ := s.memWrite_memWrite_stored (s.sp - 1#16) (s.sp - 2#16) hi lo
  exact ⟨by apply State.ext <;> simp, h2, h3⟩

/-- A call pushes `PC` and jumps. -/
theorem State.pushPc_setPc_stored (s : State) (w : Word) :
    Stored { s with pc := w, sp := s.sp - 2#16 } (s.pushPc.setPc w)
      [(s.sp - 1#16, hiByte s.pc), (s.sp - 2#16, loByte s.pc)] := by
  obtain ⟨-, h2, h3⟩ := s.pushBytes_stored (hiByte s.pc) (loByte s.pc)
  exact ⟨by apply State.ext <;> simp [State.pushPc], h2, h3⟩

end Sys2Proof.Machine
end

