-- ==== Sys2Proof/Tests/Slice0.lean ====
section
/-! SUPPORT. The model's own tests: well-formedness, decoding of words written out from 30_encoding.md R84, one step of
the vectors of 95_test_vectors.md (named by their number there; `w` marks one calculated by hand from the rules), the
sampling vectors of its part C, and for every statement with hypotheses a state that meets them. -/

namespace Sys2Proof.Tests

open Sys2Proof Sys2Proof.Machine

/-! ### Helpers -/

def zeroRegs : Regs := State.reset.regs
def clearFlags : Flags := State.reset.flags

/-- The background state of 95_test_vectors.md. -/
def bg (v : Config.Variant) : State :=
  { State.reset with
    cfg := { Config.Params.standard v with fxBits := .fixed false false true }
    sp := 0x8000#16
    pc := 0x0100#16 }

/-- What is seen after one step. -/
def after {α : Type} (s : State) (see : State → α) : Option α :=
  match step s with
  | .next t => some (see t)
  | .fault _ => none
  | .refused _ => none

/-! ### Well-formedness -/

theorem test_mov_m_m_is_ill_formed (v : Config.Variant) : (Instr.mov .m .m).wellFormed v = false := rfl
theorem test_rim_is_ill_formed_on_i8080 : Instr.rim.wellFormed .i8080 = false := by decide
theorem test_sim_is_ill_formed_on_i8080 : Instr.sim.wellFormed .i8080 = false := by decide
theorem test_unused20_is_ill_formed_on_i8085 : Instr.unused20.wellFormed .i8085 = false := by decide
theorem test_unused30_is_ill_formed_on_i8085 : Instr.unused30.wellFormed .i8085 = false := by decide

/-! ### Decoding -/

theorem test_decode_data_movement (v : Config.Variant) :
    decode v [0b01100111#8] = .ok (.mov .h .a, []) ∧
    decode v [0b00110110#8, 0xA6#8] = .ok (.mvi .m 0xA6#8, []) ∧
    decode v [0b00010001#8, 0xCD#8, 0xAB#8] = .ok (.lxi .de 0xABCD#16, []) ∧
    decode v [0b00111010#8, 0xCD#8, 0xAB#8] = .ok (.lda 0xABCD#16, []) ∧
    decode v [0b00110010#8, 0xCD#8, 0xAB#8] = .ok (.sta 0xABCD#16, []) ∧
    decode v [0b00101010#8, 0xCD#8, 0xAB#8] = .ok (.lhld 0xABCD#16, []) ∧
    decode v [0b00100010#8, 0xCD#8, 0xAB#8] = .ok (.shld 0xABCD#16, []) ∧
    decode v [0b00001010#8] = .ok (.ldax .bc, []) ∧
    decode v [0b00010010#8] = .ok (.stax .de, []) ∧
    decode v [0b11101011#8] = .ok (.xchg, []) := by
  cases v <;> exact ⟨rfl, rfl, rfl, rfl, rfl, rfl, rfl, rfl, rfl, rfl⟩

theorem test_decode_arithmetic (v : Config.Variant) :
    decode v [0b10000100#8] = .ok (.add .h, []) ∧
    decode v [0b11000110#8, 0xA6#8] = .ok (.adi 0xA6#8, []) ∧
    decode v [0b10001111#8] = .ok (.adc .a, []) ∧
    decode v [0b11001110#8, 0xA6#8] = .ok (.aci 0xA6#8, []) ∧
    decode v [0b10010010#8] = .ok (.sub .d, []) ∧
    decode v [0b11010110#8, 0xA6#8] = .ok (.sui 0xA6#8, []) ∧
    decode v [0b10011101#8] = .ok (.sbb .l, []) ∧
    decode v [0b11011110#8, 0xA6#8] = .ok (.sbi 0xA6#8, []) ∧
    decode v [0b00000100#8] = .ok (.inr .b, []) ∧
    decode v [0b00011101#8] = .ok (.dcr .e, []) ∧
    decode v [0b00100011#8] = .ok (.inx .hl, []) ∧
    decode v [0b00111011#8] = .ok (.dcx .sp, []) ∧
    decode v [0b00001001#8] = .ok (.dad .bc, []) ∧
    decode v [0b00100111#8] = .ok (.daa, []) := by
  cases v <;> exact ⟨rfl, rfl, rfl, rfl, rfl, rfl, rfl, rfl, rfl, rfl, rfl, rfl,
    rfl, rfl⟩

theorem test_decode_logic (v : Config.Variant) :
    decode v [0b10100001#8] = .ok (.ana .c, []) ∧
    decode v [0b11100110#8, 0xA6#8] = .ok (.ani 0xA6#8, []) ∧
    decode v [0b10101100#8] = .ok (.xra .h, []) ∧
    decode v [0b11101110#8, 0xA6#8] = .ok (.xri 0xA6#8, []) ∧
    decode v [0b10110111#8] = .ok (.ora .a, []) ∧
    decode v [0b11110110#8, 0xA6#8] = .ok (.ori 0xA6#8, []) ∧
    decode v [0b10111010#8] = .ok (.cmp .d, []) ∧
    decode v [0b11111110#8, 0xA6#8] = .ok (.cpi 0xA6#8, []) ∧
    decode v [0b00000111#8] = .ok (.rlc, []) ∧
    decode v [0b00001111#8] = .ok (.rrc, []) ∧
    decode v [0b00010111#8] = .ok (.ral, []) ∧
    decode v [0b00011111#8] = .ok (.rar, []) ∧
    decode v [0b00101111#8] = .ok (.cma, []) ∧
    decode v [0b00111111#8] = .ok (.cmc, []) ∧
    decode v [0b00110111#8] = .ok (.stc, []) := by
  cases v <;> exact ⟨rfl, rfl, rfl, rfl, rfl, rfl, rfl, rfl, rfl, rfl, rfl, rfl,
    rfl, rfl, rfl⟩

theorem test_decode_jumps (v : Config.Variant) :
    decode v [0b11000011#8, 0xCD#8, 0xAB#8] = .ok (.jmp 0xABCD#16, []) ∧
    decode v [0b11000010#8, 0xCD#8, 0xAB#8] = .ok (.jnz 0xABCD#16, []) ∧
    decode v [0b11001010#8, 0xCD#8, 0xAB#8] = .ok (.jz 0xABCD#16, []) ∧
    decode v [0b11010010#8, 0xCD#8, 0xAB#8] = .ok (.jnc 0xABCD#16, []) ∧
    decode v [0b11011010#8, 0xCD#8, 0xAB#8] = .ok (.jc 0xABCD#16, []) ∧
    decode v [0b11100010#8, 0xCD#8, 0xAB#8] = .ok (.jpo 0xABCD#16, []) ∧
    decode v [0b11101010#8, 0xCD#8, 0xAB#8] = .ok (.jpe 0xABCD#16, []) ∧
    decode v [0b11110010#8, 0xCD#8, 0xAB#8] = .ok (.jp 0xABCD#16, []) ∧
    decode v [0b11111010#8, 0xCD#8, 0xAB#8] = .ok (.jm 0xABCD#16, []) ∧
    decode v [0b11101001#8] = .ok (.pchl, []) := by
  cases v <;> exact ⟨rfl, rfl, rfl, rfl, rfl, rfl, rfl, rfl, rfl, rfl⟩

theorem test_decode_calls (v : Config.Variant) :
    decode v [0b11001101#8, 0xCD#8, 0xAB#8] = .ok (.call 0xABCD#16, []) ∧
    decode v [0b11000100#8, 0xCD#8, 0xAB#8] = .ok (.cnz 0xABCD#16, []) ∧
    decode v [0b11001100#8, 0xCD#8, 0xAB#8] = .ok (.cz 0xABCD#16, []) ∧
    decode v [0b11010100#8, 0xCD#8, 0xAB#8] = .ok (.cnc 0xABCD#16, []) ∧
    decode v [0b11011100#8, 0xCD#8, 0xAB#8] = .ok (.cc 0xABCD#16, []) ∧
    decode v [0b11100100#8, 0xCD#8, 0xAB#8] = .ok (.cpo 0xABCD#16, []) ∧
    decode v [0b11101100#8, 0xCD#8, 0xAB#8] = .ok (.cpe 0xABCD#16, []) ∧
    decode v [0b11110100#8, 0xCD#8, 0xAB#8] = .ok (.cp 0xABCD#16, []) ∧
    decode v [0b11111100#8, 0xCD#8, 0xAB#8] = .ok (.cm 0xABCD#16, []) ∧
    decode v [0b11110111#8] = .ok (.rst 0b110#3, []) := by
  cases v <;> exact ⟨rfl, rfl, rfl, rfl, rfl, rfl, rfl, rfl, rfl, rfl⟩

theorem test_decode_returns (v : Config.Variant) :
    decode v [0b11001001#8] = .ok (.ret, []) ∧
    decode v [0b11000000#8] = .ok (.rnz, []) ∧
    decode v [0b11001000#8] = .ok (.rz, []) ∧
    decode v [0b11010000#8] = .ok (.rnc, []) ∧
    decode v [0b11011000#8] = .ok (.rc, []) ∧
    decode v [0b11100000#8] = .ok (.rpo, []) ∧
    decode v [0b11101000#8] = .ok (.rpe, []) ∧
    decode v [0b11110000#8] = .ok (.rp, []) ∧
    decode v [0b11111000#8] = .ok (.rm, []) := by
  cases v <;> exact ⟨rfl, rfl, rfl, rfl, rfl, rfl, rfl, rfl, rfl⟩

theorem test_decode_stack (v : Config.Variant) :
    decode v [0b11010101#8] = .ok (.push .de, []) ∧
    decode v [0b11100001#8] = .ok (.pop .hl, []) ∧
    decode v [0b11100011#8] = .ok (.xthl, []) ∧
    decode v [0b11111001#8] = .ok (.sphl, []) := by
  cases v <;> exact ⟨rfl, rfl, rfl, rfl⟩

theorem test_decode_io (v : Config.Variant) :
    decode v [0b11011011#8, 0xA6#8] = .ok (.inPort 0xA6#8, []) ∧
    decode v [0b11010011#8, 0xA6#8] = .ok (.outPort 0xA6#8, []) := by
  cases v <;> exact ⟨rfl, rfl⟩

theorem test_decode_other (v : Config.Variant) :
    decode v [0b11111011#8] = .ok (.ei, []) ∧
    decode v [0b11110011#8] = .ok (.di, []) ∧
    decode v [0b01110110#8] = .ok (.hlt, []) ∧
    decode v [0b00000000#8] = .ok (.nop, []) := by
  cases v <;> exact ⟨rfl, rfl, rfl, rfl⟩

theorem test_decode_i8085 :
    decode .i8085 [0b00110000#8] = .ok (.sim, []) ∧
    decode .i8085 [0b00100000#8] = .ok (.rim, []) := ⟨rfl, rfl⟩

theorem test_decode_unused (v : Config.Variant) :
    decode v [0b00001000#8] = .ok (.unused08, []) ∧
    decode v [0b00010000#8] = .ok (.unused10, []) ∧
    decode v [0b00011000#8] = .ok (.unused18, []) ∧
    decode v [0b00101000#8] = .ok (.unused28, []) ∧
    decode v [0b00111000#8] = .ok (.unused38, []) ∧
    decode v [0b11001011#8, 0xCD#8, 0xAB#8] = .ok (.unusedCB 0xABCD#16, []) ∧
    decode v [0b11011001#8] = .ok (.unusedD9, []) ∧
    decode v [0b11011101#8, 0xCD#8, 0xAB#8] = .ok (.unusedDD 0xABCD#16, []) ∧
    decode v [0b11101101#8, 0xCD#8, 0xAB#8] = .ok (.unusedED 0xABCD#16, []) ∧
    decode v [0b11111101#8, 0xCD#8, 0xAB#8] = .ok (.unusedFD 0xABCD#16, []) ∧
    decode .i8080 [0b00100000#8] = .ok (.unused20, []) ∧
    decode .i8080 [0b00110000#8] = .ok (.unused30, []) := by
  cases v <;> exact ⟨rfl, rfl, rfl, rfl, rfl, rfl, rfl, rfl, rfl, rfl, rfl, rfl⟩

theorem test_decode_refuses_missing_bytes (v : Config.Variant) :
    decode v [] = .error .noOpcode ∧ decode v [0x3E#8] = .error (.truncated 0x3E#8) ∧
    decode v [0xC3#8, 0x00#8] = .error (.truncated 0xC3#8) := ⟨rfl, rfl, rfl⟩

/-- Bit 0 of a table word is the least significant bit of the first byte. -/
theorem test_table_word :
    decodeTableWord 24 0xABCD11 = some (.lxi .de 0xABCD#16) ∧ decodeTableWord 8 0x76 = some .hlt ∧
    decodeTableWord 8 0x20 = some .rim := by decide

theorem test_table_word_runs_first : after (State.reset.withFetchWord 16 0xA60E) (fun t => (t.regs.c, t.pc)) =
    some (0xA6#8, 0x0002#16) := by decide

/-! ### One step -/

theorem test_mov_h_a_v1 :
    after (.load [(0x0100#16, 0x67#8)]
      { bg .i8080 with regs := { zeroRegs with a := 0x5A#8 } })
      (fun t => (t.regs.h, t.pc, t.clk)) = some (0x5A#8, 0x0101#16, 5) := by decide

theorem test_mov_m_h_v5 :
    after (.load [(0x0100#16, 0x74#8)]
      { bg .i8080 with regs := { zeroRegs with h := 0x33#8, l := 0x44#8 } })
      (fun t => (t.byteAt 0x3344#16, t.pc, t.clk)) = some (0x33#8, 0x0101#16, 7) := by decide

theorem test_mvi_c_a6_v6 :
    after (.load [(0x0100#16, 0x0E#8), (0x0101#16, 0xA6#8)]
      (bg .i8080))
      (fun t => (t.regs.c, t.pc, t.clk)) = some (0xA6#8, 0x0102#16, 7) := by decide

theorem test_mvi_m_3c_v7 :
    after (.load [(0x0100#16, 0x36#8), (0x0101#16, 0x3C#8)]
      { bg .i8080 with regs := { zeroRegs with h := 0x20#8, l := 0xFF#8 } })
      (fun t => (t.byteAt 0x20FF#16, t.pc, t.clk)) = some (0x3C#8, 0x0102#16, 10) := by decide

theorem test_lxi_de_abcd_v8 :
    after (.load [(0x0100#16, 0x11#8), (0x0101#16, 0xCD#8), (0x0102#16, 0xAB#8)]
      (bg .i8080))
      (fun t => (t.regs.d, t.regs.e, t.pc, t.clk)) = some (0xAB#8, 0xCD#8, 0x0103#16, 10) := by decide

theorem test_lxi_sp_2400_v9 :
    after (.load [(0x0100#16, 0x31#8), (0x0101#16, 0x00#8), (0x0102#16, 0x24#8)]
      (bg .i8080))
      (fun t => (t.sp, t.pc, t.clk)) = some (0x2400#16, 0x0103#16, 10) := by decide

theorem test_lda_3456_v10 :
    after (.load [(0x0100#16, 0x3A#8), (0x0101#16, 0x56#8), (0x0102#16, 0x34#8), (0x3456#16, 0x9C#8)]
      (bg .i8080))
      (fun t => (t.regs.a, t.pc, t.clk)) = some (0x9C#8, 0x0103#16, 13) := by decide

theorem test_sta_29be_v11 :
    after (.load [(0x0100#16, 0x32#8), (0x0101#16, 0xBE#8), (0x0102#16, 0x29#8)]
      { bg .i8080 with regs := { zeroRegs with a := 0x77#8 } })
      (fun t => (t.byteAt 0x29BE#16, t.pc, t.clk)) = some (0x77#8, 0x0103#16, 13) := by decide

theorem test_lhld_ffff_v13 :
    after (.load [(0x0100#16, 0x2A#8), (0x0101#16, 0xFF#8), (0x0102#16, 0xFF#8), (0xFFFF#16, 0xAA#8), (0x0000#16,
        0xBB#8)]
      (bg .i8080))
      (fun t => (t.regs.h, t.regs.l, t.pc, t.clk)) = some (0xBB#8, 0xAA#8, 0x0103#16, 16) := by decide

theorem test_shld_ffff_v15 :
    after (.load [(0x0100#16, 0x22#8), (0x0101#16, 0xFF#8), (0x0102#16, 0xFF#8)]
      { bg .i8080 with regs := { zeroRegs with h := 0x12#8, l := 0x34#8 } })
      (fun t => (t.byteAt 0xFFFF#16, t.byteAt 0x0000#16, t.pc, t.clk)) = some (0x34#8, 0x12#8, 0x0103#16,
        16) := by decide

theorem test_ldax_bc_v16 :
    after (.load [(0x0100#16, 0x0A#8), (0x4000#16, 0x3C#8)]
      { bg .i8080 with regs := { zeroRegs with b := 0x40#8, c := 0x00#8 } })
      (fun t => (t.regs.a, t.pc, t.clk)) = some (0x3C#8, 0x0101#16, 7) := by decide

theorem test_ldax_de_v17 :
    after (.load [(0x0100#16, 0x1A#8), (0x4001#16, 0x3D#8)]
      { bg .i8080 with regs := { zeroRegs with d := 0x40#8, e := 0x01#8 } })
      (fun t => (t.regs.a, t.pc, t.clk)) = some (0x3D#8, 0x0101#16, 7) := by decide

theorem test_stax_bc_v18 :
    after (.load [(0x0100#16, 0x02#8)]
      { bg .i8080 with regs := { zeroRegs with b := 0x50#8, c := 0x11#8, a := 0xE8#8 } })
      (fun t => (t.byteAt 0x5011#16, t.pc, t.clk)) = some (0xE8#8, 0x0101#16, 7) := by decide

theorem test_stax_de_v19 :
    after (.load [(0x0100#16, 0x12#8)]
      { bg .i8080 with regs := { zeroRegs with d := 0x50#8, e := 0x10#8, a := 0xE7#8 } })
      (fun t => (t.byteAt 0x5010#16, t.pc, t.clk)) = some (0xE7#8, 0x0101#16, 7) := by decide

theorem test_xchg_v20 :
    after (.load [(0x0100#16, 0xEB#8)]
      { bg .i8080 with regs := { zeroRegs with h := 0x12#8, l := 0x34#8, d := 0xAB#8, e := 0xCD#8 } })
      (fun t => (t.regs.d, t.regs.e, t.regs.h, t.regs.l, t.pc, t.clk)) = some (0x12#8, 0x34#8, 0xAB#8, 0xCD#8,
        0x0101#16, 4) := by decide

theorem test_add_c_v30 :
    after (.load [(0x0100#16, 0x81#8)]
      { bg .i8080 with regs := { zeroRegs with a := 0x6C#8, c := 0x2E#8 } })
      (fun t => (t.regs.a, t.pc, t.flags, t.clk)) = some (0x9A#8, 0x0101#16, ⟨true, false, true, true, false⟩,
        4) := by decide

theorem test_add_m_v32 :
    after (.load [(0x0100#16, 0x86#8), (0x2000#16, 0x01#8)]
      { bg .i8080 with regs := { zeroRegs with a := 0x0F#8, h := 0x20#8, l := 0x00#8 } })
      (fun t => (t.regs.a, t.pc, t.flags, t.clk)) = some (0x10#8, 0x0101#16, ⟨false, false, true, false, false⟩,
        7) := by decide

theorem test_adi_f3_v34 :
    after (.load [(0x0100#16, 0xC6#8), (0x0101#16, 0xF3#8)]
      { bg .i8080 with regs := { zeroRegs with a := 0x14#8 } })
      (fun t => (t.regs.a, t.pc, t.flags, t.clk)) = some (0x07#8, 0x0102#16, ⟨false, false, false, false, true⟩,
        7) := by decide

theorem test_adc_b_v35 :
    after (.load [(0x0100#16, 0x88#8)]
      { bg .i8080 with regs := { zeroRegs with a := 0x42#8, b := 0x3D#8 }, flags := { clearFlags with cy := true } })
      (fun t => (t.regs.a, t.pc, t.flags, t.clk)) = some (0x80#8, 0x0101#16, ⟨true, false, true, false, false⟩,
        4) := by decide

theorem test_adc_a_v36 :
    after (.load [(0x0100#16, 0x8F#8)]
      { bg .i8080 with regs := { zeroRegs with a := 0xFF#8 }, flags := { clearFlags with cy := true } })
      (fun t => (t.regs.a, t.pc, t.flags, t.clk)) = some (0xFF#8, 0x0101#16, ⟨true, false, true, true, true⟩,
        4) := by decide

theorem test_aci_be_v37 :
    after (.load [(0x0100#16, 0xCE#8), (0x0101#16, 0xBE#8)]
      { bg .i8080 with regs := { zeroRegs with a := 0x56#8 }, flags := { clearFlags with cy := true } })
      (fun t => (t.regs.a, t.pc, t.flags, t.clk)) = some (0x15#8, 0x0102#16, ⟨false, false, true, false, true⟩,
        7) := by decide

theorem test_aci_00_v38 :
    after (.load [(0x0100#16, 0xCE#8), (0x0101#16, 0x00#8)]
      { bg .i8080 with regs := { zeroRegs with a := 0xFF#8 }, flags := { clearFlags with cy := true } })
      (fun t => (t.regs.a, t.pc, t.flags, t.clk)) = some (0x00#8, 0x0102#16, ⟨false, true, true, true, true⟩,
        7) := by decide

theorem test_sub_d_v39 :
    after (.load [(0x0100#16, 0x92#8)]
      { bg .i8080 with regs := { zeroRegs with a := 0x3E#8, d := 0x3E#8 } })
      (fun t => (t.regs.a, t.pc, t.flags, t.clk)) = some (0x00#8, 0x0101#16, ⟨false, true, true, true, false⟩,
        4) := by decide

theorem test_sub_b_v41 :
    after (.load [(0x0100#16, 0x90#8)]
      { bg .i8080 with regs := { zeroRegs with a := 0x00#8, b := 0x01#8 } })
      (fun t => (t.regs.a, t.pc, t.flags, t.clk)) = some (0xFF#8, 0x0101#16, ⟨true, false, false, true, true⟩,
        4) := by decide

theorem test_sui_d2_v42 :
    after (.load [(0x0100#16, 0xD6#8), (0x0101#16, 0xD2#8)]
      { bg .i8080 with regs := { zeroRegs with a := 0x10#8 } })
      (fun t => (t.regs.a, t.pc, t.flags, t.clk)) = some (0x3E#8, 0x0102#16, ⟨false, false, false, false, true⟩,
        7) := by decide

theorem test_sbb_h_v43 :
    after (.load [(0x0100#16, 0x9C#8)]
      { bg .i8080 with regs := { zeroRegs with a := 0x04#8, h := 0x02#8 }, flags := { clearFlags with cy := true } })
      (fun t => (t.regs.a, t.pc, t.flags, t.clk)) = some (0x01#8, 0x0101#16, ⟨false, false, true, false, false⟩,
        4) := by decide

theorem test_sbb_b_v44 :
    after (.load [(0x0100#16, 0x98#8)]
      { bg .i8080 with regs := { zeroRegs with a := 0x00#8, b := 0xFF#8 }, flags := { clearFlags with cy := true } })
      (fun t => (t.regs.a, t.pc, t.flags, t.clk)) = some (0x00#8, 0x0101#16, ⟨false, true, false, true, true⟩,
        4) := by decide

theorem test_sbi_79_v45 :
    after (.load [(0x0100#16, 0xDE#8), (0x0101#16, 0x79#8)]
      { bg .i8080 with regs := { zeroRegs with a := 0x00#8 }, flags := { clearFlags with cy := true } })
      (fun t => (t.regs.a, t.pc, t.flags, t.clk)) = some (0x86#8, 0x0102#16, ⟨true, false, false, false, true⟩,
        7) := by decide

theorem test_inr_b_v46 :
    after (.load [(0x0100#16, 0x04#8)]
      { bg .i8080 with regs := { zeroRegs with b := 0xFF#8 }, flags := { clearFlags with cy := true } })
      (fun t => (t.regs.b, t.pc, t.flags, t.clk)) = some (0x00#8, 0x0101#16, ⟨false, true, true, true, true⟩,
        5) := by decide

theorem test_inr_m_v48 :
    after (.load [(0x0100#16, 0x34#8), (0x2000#16, 0x0F#8)]
      { bg .i8080 with regs := { zeroRegs with h := 0x20#8, l := 0x00#8 } })
      (fun t => (t.byteAt 0x2000#16, t.pc, t.flags, t.clk)) = some (0x10#8, 0x0101#16, ⟨false, false, true, false,
        false⟩, 10) := by decide

theorem test_dcr_l_v49 :
    after (.load [(0x0100#16, 0x2D#8)]
      { bg .i8080 with regs := { zeroRegs with l := 0x00#8 } })
      (fun t => (t.regs.l, t.pc, t.flags, t.clk)) = some (0xFF#8, 0x0101#16, ⟨true, false, false, true, false⟩,
        5) := by decide

theorem test_dcr_m_v51 :
    after (.load [(0x0100#16, 0x35#8), (0x2000#16, 0x10#8)]
      { bg .i8080 with regs := { zeroRegs with h := 0x20#8, l := 0x00#8 } })
      (fun t => (t.byteAt 0x2000#16, t.pc, t.flags, t.clk)) = some (0x0F#8, 0x0101#16, ⟨false, false, false, true,
        false⟩, 10) := by decide

theorem test_inx_bc_v52 :
    after (.load [(0x0100#16, 0x03#8)]
      { bg .i8080 with regs := { zeroRegs with b := 0x12#8, c := 0xFF#8 } })
      (fun t => (t.regs.b, t.regs.c, t.pc, t.clk)) = some (0x13#8, 0x00#8, 0x0101#16, 5) := by decide

theorem test_inx_sp_v54 :
    after (.load [(0x0100#16, 0x33#8)]
      { bg .i8080 with sp := 0xFFFF#16 })
      (fun t => (t.sp, t.pc, t.clk)) = some (0x0000#16, 0x0101#16, 5) := by decide

theorem test_dcx_sp_v55 :
    after (.load [(0x0100#16, 0x3B#8)]
      { bg .i8080 with sp := 0x0000#16 })
      (fun t => (t.sp, t.pc, t.clk)) = some (0xFFFF#16, 0x0101#16, 5) := by decide

theorem test_dcx_de_v56 :
    after (.load [(0x0100#16, 0x1B#8)]
      { bg .i8080 with regs := { zeroRegs with d := 0x10#8, e := 0x00#8 } })
      (fun t => (t.regs.d, t.regs.e, t.pc, t.clk)) = some (0x0F#8, 0xFF#8, 0x0101#16, 5) := by decide

theorem test_dad_bc_v57 :
    after (.load [(0x0100#16, 0x09#8)]
      { bg .i8080 with
        regs := { zeroRegs with h := 0xA1#8, l := 0x7B#8, b := 0x33#8, c := 0x9F#8 }
        flags := { clearFlags with cy := true, z := true } })
      (fun t => (t.regs.h, t.regs.l, t.pc, t.flags, t.clk)) = some (0xD5#8, 0x1A#8, 0x0101#16, ⟨false, true, false,
        false, false⟩, 10) := by decide

theorem test_dad_sp_v59 :
    after (.load [(0x0100#16, 0x39#8)]
      { bg .i8080 with regs := { zeroRegs with h := 0x00#8, l := 0x02#8 }, sp := 0xFFFE#16 })
      (fun t => (t.regs.h, t.regs.l, t.pc, t.flags, t.clk)) = some (0x00#8, 0x00#8, 0x0101#16, ⟨false, false,
        false, false, true⟩, 10) := by decide

theorem test_daa_v61 :
    after (.load [(0x0100#16, 0x27#8)]
      { bg .i8080 with regs := { zeroRegs with a := 0x9B#8 } })
      (fun t => (t.regs.a, t.pc, t.flags, t.clk)) = some (0x01#8, 0x0101#16, ⟨false, false, true, false, true⟩,
        4) := by decide

theorem test_daa_v66 :
    after (.load [(0x0100#16, 0x27#8)]
      { bg .i8080 with regs := { zeroRegs with a := 0x9A#8 } })
      (fun t => (t.regs.a, t.pc, t.flags, t.clk)) = some (0x00#8, 0x0101#16, ⟨false, true, true, true, true⟩,
        4) := by decide

theorem test_ana_d_v81 :
    after (.load [(0x0100#16, 0xA2#8)]
      { bg .i8085 with regs := { zeroRegs with a := 0xF4#8, d := 0x07#8 }, flags := { clearFlags with cy := true } })
      (fun t => (t.regs.a, t.pc, t.flags, t.clk)) = some (0x04#8, 0x0101#16, ⟨false, false, true, false, false⟩,
        4) := by decide

theorem test_ana_d_v82 :
    after (.load [(0x0100#16, 0xA2#8)]
      { bg .i8080 with regs := { zeroRegs with a := 0xF4#8, d := 0x07#8 }, flags := { clearFlags with cy := true } })
      (fun t => (t.regs.a, t.pc, t.flags, t.clk)) = some (0x04#8, 0x0101#16, ⟨false, false, false, false, false⟩,
        4) := by decide

theorem test_ani_9b_v85 :
    after (.load [(0x0100#16, 0xE6#8), (0x0101#16, 0x9B#8)]
      { bg .i8080 with regs := { zeroRegs with a := 0x3A#8 }, flags := { clearFlags with cy := true, ac := true } })
      (fun t => (t.regs.a, t.pc, t.flags, t.clk)) = some (0x1A#8, 0x0102#16, ⟨false, false, false, false, false⟩,
        7) := by decide

theorem test_xra_l_v86 :
    after (.load [(0x0100#16, 0xAD#8)]
      { bg .i8080 with regs := { zeroRegs with a := 0x5C#8, l := 0x78#8 }, flags := { clearFlags with cy := true } })
      (fun t => (t.regs.a, t.pc, t.flags, t.clk)) = some (0x24#8, 0x0101#16, ⟨false, false, false, true, false⟩,
        4) := by decide

theorem test_xra_a_v87 :
    after (.load [(0x0100#16, 0xAF#8)]
      { bg .i8080 with regs := { zeroRegs with a := 0x9D#8 }, flags := { clearFlags with cy := true, ac := true } })
      (fun t => (t.regs.a, t.pc, t.flags, t.clk)) = some (0x00#8, 0x0101#16, ⟨false, true, false, true, false⟩,
        4) := by decide

theorem test_xri_d5_v88 :
    after (.load [(0x0100#16, 0xEE#8), (0x0101#16, 0xD5#8)]
      { bg .i8080 with regs := { zeroRegs with a := 0x3B#8 }, flags := { clearFlags with cy := true } })
      (fun t => (t.regs.a, t.pc, t.flags, t.clk)) = some (0xEE#8, 0x0102#16, ⟨true, false, false, true, false⟩,
        7) := by decide

theorem test_ora_h_v89 :
    after (.load [(0x0100#16, 0xB4#8)]
      { bg .i8080 with regs := { zeroRegs with a := 0x33#8, h := 0x0F#8 }, flags := { clearFlags with cy := true } })
      (fun t => (t.regs.a, t.pc, t.flags, t.clk)) = some (0x3F#8, 0x0101#16, ⟨false, false, false, true, false⟩,
        4) := by decide

theorem test_ori_f2_v91 :
    after (.load [(0x0100#16, 0xF6#8), (0x0101#16, 0xF2#8)]
      { bg .i8080 with regs := { zeroRegs with a := 0x05#8 }, flags := { clearFlags with cy := true } })
      (fun t => (t.regs.a, t.pc, t.flags, t.clk)) = some (0xF7#8, 0x0102#16, ⟨true, false, false, false, false⟩,
        7) := by decide

theorem test_cmp_d_v92 :
    after (.load [(0x0100#16, 0xBA#8)]
      { bg .i8080 with regs := { zeroRegs with a := 0x02#8, d := 0x05#8 } })
      (fun t => (t.regs.a, t.pc, t.flags, t.clk)) = some (0x02#8, 0x0101#16, ⟨true, false, false, false, true⟩,
        4) := by decide

theorem test_cmp_m_v95 :
    after (.load [(0x0100#16, 0xBE#8), (0x2000#16, 0x7F#8)]
      { bg .i8080 with regs := { zeroRegs with a := 0x80#8, h := 0x20#8, l := 0x00#8 } })
      (fun t => (t.regs.a, t.pc, t.flags, t.clk)) = some (0x80#8, 0x0101#16, ⟨false, false, false, false, false⟩,
        7) := by decide

theorem test_cpi_d9_v96 :
    after (.load [(0x0100#16, 0xFE#8), (0x0101#16, 0xD9#8)]
      { bg .i8080 with regs := { zeroRegs with a := 0x4A#8 } })
      (fun t => (t.regs.a, t.pc, t.flags, t.clk)) = some (0x4A#8, 0x0102#16, ⟨false, false, true, true, true⟩,
        7) := by decide

theorem test_rlc_v98 :
    after (.load [(0x0100#16, 0x07#8)]
      { bg .i8080 with regs := { zeroRegs with a := 0xF2#8 } })
      (fun t => (t.regs.a, t.pc, t.flags, t.clk)) = some (0xE5#8, 0x0101#16, ⟨false, false, false, false, true⟩,
        4) := by decide

theorem test_rlc_v99 :
    after (.load [(0x0100#16, 0x07#8)]
      { bg .i8080 with regs := { zeroRegs with a := 0x01#8 }, flags := { clearFlags with cy := true } })
      (fun t => (t.regs.a, t.pc, t.flags, t.clk)) = some (0x02#8, 0x0101#16, ⟨false, false, false, false, false⟩,
        4) := by decide

theorem test_rrc_v100 :
    after (.load [(0x0100#16, 0x0F#8)]
      { bg .i8080 with regs := { zeroRegs with a := 0xF2#8 }, flags := { clearFlags with cy := true } })
      (fun t => (t.regs.a, t.pc, t.flags, t.clk)) = some (0x79#8, 0x0101#16, ⟨false, false, false, false, false⟩,
        4) := by decide

theorem test_rrc_v101 :
    after (.load [(0x0100#16, 0x0F#8)]
      { bg .i8080 with regs := { zeroRegs with a := 0x01#8 } })
      (fun t => (t.regs.a, t.pc, t.flags, t.clk)) = some (0x80#8, 0x0101#16, ⟨false, false, false, false, true⟩,
        4) := by decide

theorem test_ral_v102 :
    after (.load [(0x0100#16, 0x17#8)]
      { bg .i8080 with regs := { zeroRegs with a := 0xB5#8 } })
      (fun t => (t.regs.a, t.pc, t.flags, t.clk)) = some (0x6A#8, 0x0101#16, ⟨false, false, false, false, true⟩,
        4) := by decide

theorem test_ral_v103 :
    after (.load [(0x0100#16, 0x17#8)]
      { bg .i8080 with regs := { zeroRegs with a := 0x00#8 }, flags := { clearFlags with cy := true } })
      (fun t => (t.regs.a, t.pc, t.flags, t.clk)) = some (0x01#8, 0x0101#16, ⟨false, false, false, false, false⟩,
        4) := by decide

theorem test_rar_v104 :
    after (.load [(0x0100#16, 0x1F#8)]
      { bg .i8080 with regs := { zeroRegs with a := 0x6A#8 }, flags := { clearFlags with cy := true } })
      (fun t => (t.regs.a, t.pc, t.flags, t.clk)) = some (0xB5#8, 0x0101#16, ⟨false, false, false, false, false⟩,
        4) := by decide

theorem test_rar_v105 :
    after (.load [(0x0100#16, 0x1F#8)]
      { bg .i8080 with regs := { zeroRegs with a := 0x01#8 } })
      (fun t => (t.regs.a, t.pc, t.flags, t.clk)) = some (0x00#8, 0x0101#16, ⟨false, false, false, false, true⟩,
        4) := by decide

theorem test_cma_v106 :
    after (.load [(0x0100#16, 0x2F#8)]
      { bg .i8080 with regs := { zeroRegs with a := 0x51#8 }, flags := { clearFlags with z := true, cy := true } })
      (fun t => (t.regs.a, t.pc, t.clk)) = some (0xAE#8, 0x0101#16, 4) := by decide

theorem test_cmc_v107 :
    after (.load [(0x0100#16, 0x3F#8)]
      { bg .i8080 with flags := { clearFlags with cy := true } })
      (fun t => (t.pc, t.flags, t.clk)) = some (0x0101#16, ⟨false, false, false, false, false⟩, 4) := by decide

theorem test_cmc_v108 :
    after (.load [(0x0100#16, 0x3F#8)]
      (bg .i8080))
      (fun t => (t.pc, t.flags, t.clk)) = some (0x0101#16, ⟨false, false, false, false, true⟩, 4) := by decide

theorem test_stc_v109 :
    after (.load [(0x0100#16, 0x37#8)]
      (bg .i8080))
      (fun t => (t.pc, t.flags, t.clk)) = some (0x0101#16, ⟨false, false, false, false, true⟩, 4) := by decide

theorem test_stc_v110 :
    after (.load [(0x0100#16, 0x37#8)]
      { bg .i8080 with flags := { clearFlags with cy := true } })
      (fun t => (t.pc, t.clk)) = some (0x0101#16, 4) := by decide

theorem test_jmp_6b7d_v120 :
    after (.load [(0x0100#16, 0xC3#8), (0x0101#16, 0x7D#8), (0x0102#16, 0x6B#8)]
      (bg .i8080))
      (fun t => (t.pc, t.clk)) = some (0x6B7D#16, 10) := by decide

theorem test_jnz_9fc5_v121 :
    after (.load [(0x0100#16, 0xC2#8), (0x0101#16, 0xC5#8), (0x0102#16, 0x9F#8)]
      (bg .i8080))
      (fun t => (t.pc, t.clk)) = some (0x9FC5#16, 10) := by decide

theorem test_jnz_9fc5_v122 :
    after (.load [(0x0100#16, 0xC2#8), (0x0101#16, 0xC5#8), (0x0102#16, 0x9F#8)]
      { bg .i8080 with flags := { clearFlags with z := true } })
      (fun t => (t.pc, t.clk)) = some (0x0103#16, 10) := by decide

theorem test_jz_9fc5_v123 :
    after (.load [(0x0100#16, 0xCA#8), (0x0101#16, 0xC5#8), (0x0102#16, 0x9F#8)]
      { bg .i8080 with flags := { clearFlags with z := true } })
      (fun t => (t.pc, t.clk)) = some (0x9FC5#16, 10) := by decide

theorem test_jz_9fc5_v124 :
    after (.load [(0x0100#16, 0xCA#8), (0x0101#16, 0xC5#8), (0x0102#16, 0x9F#8)]
      (bg .i8080))
      (fun t => (t.pc, t.clk)) = some (0x0103#16, 10) := by decide

theorem test_jnc_9fc5_v125 :
    after (.load [(0x0100#16, 0xD2#8), (0x0101#16, 0xC5#8), (0x0102#16, 0x9F#8)]
      (bg .i8080))
      (fun t => (t.pc, t.clk)) = some (0x9FC5#16, 10) := by decide

theorem test_jnc_9fc5_v126 :
    after (.load [(0x0100#16, 0xD2#8), (0x0101#16, 0xC5#8), (0x0102#16, 0x9F#8)]
      { bg .i8080 with flags := { clearFlags with cy := true } })
      (fun t => (t.pc, t.clk)) = some (0x0103#16, 10) := by decide

theorem test_jc_9fc5_v127 :
    after (.load [(0x0100#16, 0xDA#8), (0x0101#16, 0xC5#8), (0x0102#16, 0x9F#8)]
      { bg .i8080 with flags := { clearFlags with cy := true } })
      (fun t => (t.pc, t.clk)) = some (0x9FC5#16, 10) := by decide

theorem test_jc_9fc5_v128 :
    after (.load [(0x0100#16, 0xDA#8), (0x0101#16, 0xC5#8), (0x0102#16, 0x9F#8)]
      (bg .i8080))
      (fun t => (t.pc, t.clk)) = some (0x0103#16, 10) := by decide

theorem test_jpo_9fc5_v129 :
    after (.load [(0x0100#16, 0xE2#8), (0x0101#16, 0xC5#8), (0x0102#16, 0x9F#8)]
      (bg .i8080))
      (fun t => (t.pc, t.clk)) = some (0x9FC5#16, 10) := by decide

theorem test_jpo_9fc5_v130 :
    after (.load [(0x0100#16, 0xE2#8), (0x0101#16, 0xC5#8), (0x0102#16, 0x9F#8)]
      { bg .i8080 with flags := { clearFlags with p := true } })
      (fun t => (t.pc, t.clk)) = some (0x0103#16, 10) := by decide

theorem test_jpe_9fc5_v131 :
    after (.load [(0x0100#16, 0xEA#8), (0x0101#16, 0xC5#8), (0x0102#16, 0x9F#8)]
      { bg .i8080 with flags := { clearFlags with p := true } })
      (fun t => (t.pc, t.clk)) = some (0x9FC5#16, 10) := by decide

theorem test_jpe_9fc5_v132 :
    after (.load [(0x0100#16, 0xEA#8), (0x0101#16, 0xC5#8), (0x0102#16, 0x9F#8)]
      (bg .i8080))
      (fun t => (t.pc, t.clk)) = some (0x0103#16, 10) := by decide

theorem test_jp_9fc5_v133 :
    after (.load [(0x0100#16, 0xF2#8), (0x0101#16, 0xC5#8), (0x0102#16, 0x9F#8)]
      (bg .i8080))
      (fun t => (t.pc, t.clk)) = some (0x9FC5#16, 10) := by decide

theorem test_jp_9fc5_v134 :
    after (.load [(0x0100#16, 0xF2#8), (0x0101#16, 0xC5#8), (0x0102#16, 0x9F#8)]
      { bg .i8080 with flags := { clearFlags with s := true } })
      (fun t => (t.pc, t.clk)) = some (0x0103#16, 10) := by decide

theorem test_jm_9fc5_v135 :
    after (.load [(0x0100#16, 0xFA#8), (0x0101#16, 0xC5#8), (0x0102#16, 0x9F#8)]
      { bg .i8080 with flags := { clearFlags with s := true } })
      (fun t => (t.pc, t.clk)) = some (0x9FC5#16, 10) := by decide

theorem test_jm_9fc5_v136 :
    after (.load [(0x0100#16, 0xFA#8), (0x0101#16, 0xC5#8), (0x0102#16, 0x9F#8)]
      (bg .i8080))
      (fun t => (t.pc, t.clk)) = some (0x0103#16, 10) := by decide

theorem test_call_b7d2_v140 :
    after (.load [(0x0100#16, 0xCD#8), (0x0101#16, 0xD2#8), (0x0102#16, 0xB7#8)]
      { bg .i8080 with sp := 0x2400#16 })
      (fun t => (t.sp, t.byteAt 0x23FF#16, t.byteAt 0x23FE#16, t.pc, t.clk)) = some (0x23FE#16, 0x01#8, 0x03#8,
        0xB7D2#16, 17) := by decide

theorem test_call_0200_v141 :
    after (.load [(0x0100#16, 0xCD#8), (0x0101#16, 0x00#8), (0x0102#16, 0x02#8)]
      { bg .i8080 with sp := 0x0001#16 })
      (fun t => (t.sp, t.byteAt 0x0000#16, t.byteAt 0xFFFF#16, t.pc, t.clk)) = some (0xFFFF#16, 0x01#8, 0x03#8,
        0x0200#16, 17) := by decide

theorem test_cc_def6_v142 :
    after (.load [(0x0100#16, 0xDC#8), (0x0101#16, 0xF6#8), (0x0102#16, 0xDE#8)]
      { bg .i8080 with flags := { clearFlags with cy := true }, sp := 0x2400#16 })
      (fun t => (t.sp, t.byteAt 0x23FF#16, t.byteAt 0x23FE#16, t.pc, t.clk)) = some (0x23FE#16, 0x01#8, 0x03#8,
        0xDEF6#16, 17) := by decide

theorem test_cc_def6_v143 :
    after (.load [(0x0100#16, 0xDC#8), (0x0101#16, 0xF6#8), (0x0102#16, 0xDE#8)]
      { bg .i8080 with sp := 0x2400#16 })
      (fun t => (t.pc, t.clk)) = some (0x0103#16, 11) := by decide

theorem test_cpe_1234_v144 :
    after (.load [(0x0100#16, 0xEC#8), (0x0101#16, 0x34#8), (0x0102#16, 0x12#8)]
      { bg .i8080 with flags := { clearFlags with p := true }, sp := 0x2400#16 })
      (fun t => (t.sp, t.byteAt 0x23FF#16, t.byteAt 0x23FE#16, t.pc, t.clk)) = some (0x23FE#16, 0x01#8, 0x03#8,
        0x1234#16, 17) := by decide

theorem test_cm_1234_v145 :
    after (.load [(0x0100#16, 0xFC#8), (0x0101#16, 0x34#8), (0x0102#16, 0x12#8)]
      { bg .i8080 with sp := 0x2400#16 })
      (fun t => (t.pc, t.clk)) = some (0x0103#16, 11) := by decide

theorem test_cnz_1234_v146 :
    after (.load [(0x0100#16, 0xC4#8), (0x0101#16, 0x34#8), (0x0102#16, 0x12#8)]
      { bg .i8080 with sp := 0x2400#16 })
      (fun t => (t.sp, t.byteAt 0x23FF#16, t.byteAt 0x23FE#16, t.pc, t.clk)) = some (0x23FE#16, 0x01#8, 0x03#8,
        0x1234#16, 17) := by decide

theorem test_ret_v147 :
    after (.load [(0x0100#16, 0xC9#8), (0x23FE#16, 0x03#8), (0x23FF#16, 0x01#8)]
      { bg .i8080 with sp := 0x23FE#16 })
      (fun t => (t.sp, t.pc, t.clk)) = some (0x2400#16, 0x0103#16, 10) := by decide

theorem test_ret_v148 :
    after (.load [(0x0100#16, 0xC9#8), (0xFFFF#16, 0x34#8), (0x0000#16, 0x12#8)]
      { bg .i8080 with sp := 0xFFFF#16 })
      (fun t => (t.sp, t.pc, t.clk)) = some (0x0001#16, 0x1234#16, 10) := by decide

theorem test_rz_v149 :
    after (.load [(0x0100#16, 0xC8#8), (0x23FE#16, 0x03#8), (0x23FF#16, 0x01#8)]
      { bg .i8080 with flags := { clearFlags with z := true }, sp := 0x23FE#16 })
      (fun t => (t.sp, t.pc, t.clk)) = some (0x2400#16, 0x0103#16, 11) := by decide

theorem test_rz_v150 :
    after (.load [(0x0100#16, 0xC8#8), (0x23FE#16, 0x03#8), (0x23FF#16, 0x01#8)]
      { bg .i8080 with sp := 0x23FE#16 })
      (fun t => (t.pc, t.clk)) = some (0x0101#16, 5) := by decide

theorem test_rc_v151 :
    after (.load [(0x0100#16, 0xD8#8), (0x23FE#16, 0x78#8), (0x23FF#16, 0x56#8)]
      { bg .i8080 with flags := { clearFlags with cy := true }, sp := 0x23FE#16 })
      (fun t => (t.sp, t.pc, t.clk)) = some (0x2400#16, 0x5678#16, 11) := by decide

theorem test_rpo_v152 :
    after (.load [(0x0100#16, 0xE0#8), (0x23FE#16, 0x78#8), (0x23FF#16, 0x56#8)]
      { bg .i8080 with flags := { clearFlags with p := true }, sp := 0x23FE#16 })
      (fun t => (t.pc, t.clk)) = some (0x0101#16, 5) := by decide

theorem test_rst_6_v153 :
    after (.load [(0x0100#16, 0xF7#8)]
      { bg .i8080 with sp := 0x2400#16 })
      (fun t => (t.sp, t.byteAt 0x23FF#16, t.byteAt 0x23FE#16, t.pc, t.clk)) = some (0x23FE#16, 0x01#8, 0x01#8,
        0x0030#16, 11) := by decide

theorem test_rst_7_v155 :
    after (.load [(0xFFFF#16, 0xFF#8)]
      { bg .i8080 with sp := 0x2400#16, pc := 0xFFFF#16 })
      (fun t => (t.sp, t.byteAt 0x23FF#16, t.byteAt 0x23FE#16, t.pc, t.clk)) = some (0x23FE#16, 0x00#8, 0x00#8,
        0x0038#16, 11) := by decide

theorem test_pchl_v156 :
    after (.load [(0x0100#16, 0xE9#8)]
      { bg .i8080 with regs := { zeroRegs with h := 0x41#8, l := 0x3E#8 } })
      (fun t => (t.pc, t.clk)) = some (0x413E#16, 5) := by decide

theorem test_push_de_v160 :
    after (.load [(0x0100#16, 0xD5#8)]
      { bg .i8080 with regs := { zeroRegs with d := 0x8F#8, e := 0x9D#8 }, sp := 0x3A2C#16 })
      (fun t => (t.sp, t.byteAt 0x3A2B#16, t.byteAt 0x3A2A#16, t.pc, t.clk)) = some (0x3A2A#16, 0x8F#8, 0x9D#8,
        0x0101#16, 11) := by decide

theorem test_push_psw_v163 :
    after (.load [(0x0100#16, 0xF5#8)]
      { bg .i8080 with
        regs := { zeroRegs with a := 0x1F#8 }
        flags := { clearFlags with z := true, p := true, cy := true }
        sp := 0x502A#16 })
      (fun t => (t.sp, t.byteAt 0x5029#16, t.byteAt 0x5028#16, t.pc, t.clk)) = some (0x5028#16, 0x1F#8, 0x47#8,
        0x0101#16, 12) := by decide

theorem test_pop_bc_v167 :
    after (.load [(0x0100#16, 0xC1#8), (0xFFFF#16, 0x01#8), (0x0000#16, 0x02#8)]
      { bg .i8080 with sp := 0xFFFF#16 })
      (fun t => (t.regs.b, t.regs.c, t.sp, t.pc, t.clk)) = some (0x02#8, 0x01#8, 0x0001#16, 0x0101#16,
        10) := by decide

theorem test_pop_psw_v168 :
    after (.load [(0x0100#16, 0xF1#8), (0x2C00#16, 0xC3#8), (0x2C01#16, 0xFF#8)]
      { bg .i8080 with sp := 0x2C00#16 })
      (fun t => (t.regs.a, t.sp, t.pc, t.flags, t.clk)) = some (0xFF#8, 0x2C02#16, 0x0101#16, ⟨true, true, false,
        false, true⟩, 10) := by decide

theorem test_xthl_v170 :
    after (.load [(0x0100#16, 0xE3#8), (0x10AD#16, 0xF0#8), (0x10AE#16, 0x0D#8)]
      { bg .i8080 with regs := { zeroRegs with h := 0x0B#8, l := 0x3C#8 }, sp := 0x10AD#16 })
      (fun t => (t.regs.h, t.regs.l, t.byteAt 0x10AE#16, t.byteAt 0x10AD#16, t.pc, t.clk)) = some (0x0D#8, 0xF0#8,
        0x0B#8, 0x3C#8, 0x0101#16, 18) := by decide

theorem test_sphl_v171 :
    after (.load [(0x0100#16, 0xF9#8)]
      { bg .i8080 with regs := { zeroRegs with h := 0x50#8, l := 0x6C#8 } })
      (fun t => (t.sp, t.pc, t.clk)) = some (0x506C#16, 0x0101#16, 5) := by decide

/-- `bg` with listed port answers: at position 0 another byte for another port, and another byte at position 1. -/
def answering : State :=
  { bg .i8080 with cfg := { (bg .i8080).cfg with ioIn :=
      [{ position := 0, port := 0x2B#8, value := 0x11#8 }, { position := 1, port := 0x2A#8, value := 0x22#8 },
       { position := 0, port := 0x2A#8, value := 0x5E#8 }] } }

theorem test_in_2a_v180 :
    after (.load [(0x0100#16, 0xDB#8), (0x0101#16, 0x2A#8)]
      { answering with flags := { clearFlags with z := true } })
      (fun t => (t.regs.a, t.pc, t.env.history, t.clk)) = some (0x5E#8, 0x0102#16, [.input 0x2A#8 0x5E#8], 10) := by
  decide

/-- The answer is the port's and the position's (45_io.md R220). -/
theorem test_in_by_port_and_position :
    portAnswer answering.cfg 0 0x2B#8 = 0x11#8 ∧ portAnswer answering.cfg 0 0x2A#8 = 0x5E#8 ∧
    portAnswer answering.cfg 1 0x2A#8 = 0x22#8 := by decide

theorem test_out_c7_v181 :
    after (.load [(0x0100#16, 0xD3#8), (0x0101#16, 0xC7#8)]
      { bg .i8080 with regs := { zeroRegs with a := 0x41#8 } })
      (fun t => (t.pc, t.env.history, t.clk)) = some (0x0102#16, [.output 0xC7#8 0x41#8], 10) := by decide

theorem test_ei_v182 :
    after (.load [(0x0100#16, 0xFB#8)]
      (bg .i8080))
      (fun t => (t.inte, t.eiPending, t.pc, t.clk)) = some (true, 1, 0x0101#16, 4) := by decide

theorem test_di_v183 :
    after (.load [(0x0100#16, 0xF3#8)]
      { bg .i8080 with inte := true })
      (fun t => (t.inte, t.pc, t.clk)) = some (false, 0x0101#16, 4) := by decide

theorem test_hlt_v184 :
    after (.load [(0x0100#16, 0x76#8)]
      (bg .i8080))
      (fun t => (t.halted, t.pc, t.clk)) = some (true, 0x0101#16, 7) := by decide

theorem test_nop_v185 :
    after (.load [(0x0100#16, 0x00#8)]
      (bg .i8080))
      (fun t => (t.pc, t.clk)) = some (0x0101#16, 4) := by decide

theorem test_rim_v190 :
    after (.load [(0x0100#16, 0x20#8)]
      { bg .i8085 with
        masks := { State.reset.masks with m65 := false }
        inte := true
        env := { State.reset.env with slots := [{ Slot.quiet with sid := true }] } })
      (fun t => (t.regs.a, t.pc, t.clk)) = some (0x8D#8, 0x0101#16, 4) := by decide

theorem test_rim_v191 :
    after (.load [(0x0100#16, 0x20#8)]
      { bg .i8085 with
        masks := { State.reset.masks with r75 := true, m55 := false, m65 := false, m75 := false }
        env := { State.reset.env with slots := [{ Slot.quiet with i55 := true }] } })
      (fun t => (t.regs.a, t.pc, t.clk)) = some (0x50#8, 0x0101#16, 4) := by decide

theorem test_sim_v192 :
    after (.load [(0x0100#16, 0x30#8)]
      { bg .i8085 with regs := { zeroRegs with a := 0xD5#8 }, masks := { State.reset.masks with r75 := true } })
      (fun t => (t.masks.m65, t.masks.r75, t.masks.sod, t.env.history)) =
      some (false, false, true, [.serial true]) := by decide

theorem test_sim_v193 :
    after (.load [(0x0100#16, 0x30#8)]
      { bg .i8085 with regs := { zeroRegs with a := 0x0A#8 } })
      (fun t => (t.pc, t.masks, t.clk)) = some (0x0101#16, State.reset.masks, 4) := by decide

theorem test_cz_1234_w1 :
    after (.load [(0x0100#16, 0xCC#8), (0x0101#16, 0x34#8), (0x0102#16, 0x12#8)]
      { bg .i8080 with sp := 0x2400#16 })
      (fun t => (t.pc, t.clk)) = some (0x0103#16, 11) := by decide

theorem test_cnc_1234_w2 :
    after (.load [(0x0100#16, 0xD4#8), (0x0101#16, 0x34#8), (0x0102#16, 0x12#8)]
      { bg .i8080 with sp := 0x2400#16 })
      (fun t => (t.sp, t.byteAt 0x23FF#16, t.byteAt 0x23FE#16, t.pc, t.clk)) = some (0x23FE#16, 0x01#8, 0x03#8,
        0x1234#16, 17) := by decide

theorem test_cpo_1234_w3 :
    after (.load [(0x0100#16, 0xE4#8), (0x0101#16, 0x34#8), (0x0102#16, 0x12#8)]
      { bg .i8080 with flags := { clearFlags with p := true }, sp := 0x2400#16 })
      (fun t => (t.pc, t.clk)) = some (0x0103#16, 11) := by decide

theorem test_cp_1234_w4 :
    after (.load [(0x0100#16, 0xF4#8), (0x0101#16, 0x34#8), (0x0102#16, 0x12#8)]
      { bg .i8080 with sp := 0x2400#16 })
      (fun t => (t.sp, t.byteAt 0x23FF#16, t.byteAt 0x23FE#16, t.pc, t.clk)) = some (0x23FE#16, 0x01#8, 0x03#8,
        0x1234#16, 17) := by decide

theorem test_rnz_w5 :
    after (.load [(0x0100#16, 0xC0#8), (0x23FE#16, 0x78#8), (0x23FF#16, 0x56#8)]
      { bg .i8080 with sp := 0x23FE#16 })
      (fun t => (t.sp, t.pc, t.clk)) = some (0x2400#16, 0x5678#16, 11) := by decide

theorem test_rnc_w6 :
    after (.load [(0x0100#16, 0xD0#8), (0x23FE#16, 0x78#8), (0x23FF#16, 0x56#8)]
      { bg .i8080 with flags := { clearFlags with cy := true }, sp := 0x23FE#16 })
      (fun t => (t.pc, t.clk)) = some (0x0101#16, 5) := by decide

theorem test_rpe_w7 :
    after (.load [(0x0100#16, 0xE8#8), (0x23FE#16, 0x78#8), (0x23FF#16, 0x56#8)]
      { bg .i8080 with flags := { clearFlags with p := true }, sp := 0x23FE#16 })
      (fun t => (t.sp, t.pc, t.clk)) = some (0x2400#16, 0x5678#16, 11) := by decide

theorem test_rp_w8 :
    after (.load [(0x0100#16, 0xF0#8), (0x23FE#16, 0x78#8), (0x23FF#16, 0x56#8)]
      { bg .i8080 with sp := 0x23FE#16 })
      (fun t => (t.sp, t.pc, t.clk)) = some (0x2400#16, 0x5678#16, 11) := by decide

theorem test_rm_w9 :
    after (.load [(0x0100#16, 0xF8#8), (0x23FE#16, 0x78#8), (0x23FF#16, 0x56#8)]
      { bg .i8080 with sp := 0x23FE#16 })
      (fun t => (t.pc, t.clk)) = some (0x0101#16, 5) := by decide

theorem test_cm_1234_w10 :
    after (.load [(0x0100#16, 0xFC#8), (0x0101#16, 0x34#8), (0x0102#16, 0x12#8)]
      { bg .i8080 with flags := { clearFlags with s := true }, sp := 0x2400#16 })
      (fun t => (t.sp, t.byteAt 0x23FF#16, t.byteAt 0x23FE#16, t.pc, t.clk)) = some (0x23FE#16, 0x01#8, 0x03#8,
        0x1234#16, 17) := by decide

theorem test_unused_v186 : step (.load [(0x0100#16, 0x08#8)] (bg .i8080)) = .fault (.illegalOpcode 0x08#8) := rfl
theorem test_unused_v189 :
    step (.load [(0x0100#16, 0xDD#8), (0x0101#16, 0x00#8), (0x0102#16, 0x02#8)] (bg .i8080)) =
      .fault (.illegalOpcode 0xDD#8) := rfl

/-- The background with the unused opcodes as aliases (46_interrupt_and_other.md R236). -/
def aliasing : State := { bg .i8080 with cfg := { (bg .i8080).cfg with illegal := .aliased } }

theorem test_unused_nop : after (aliasing.load [(0x0100#16, 0x38#8)]) (fun t => (t.pc, t.regs)) =
    some (0x0101#16, zeroRegs) := by decide
theorem test_unused_jump : after (aliasing.load [(0x0100#16, 0xCB#8), (0x0102#16, 0x02#8)]) (fun t => t.pc) =
    some 0x0200#16 := by decide
theorem test_unused_return : after (aliasing.load [(0x0100#16, 0xD9#8), (0x8001#16, 0x12#8)]) (fun t => (t.pc, t.sp)) =
    some (0x1200#16, 0x8002#16) := by decide
theorem test_unused_call :
    after (aliasing.load [(0x0100#16, 0xFD#8), (0x0102#16, 0x02#8)]) (fun t => (t.pc, t.byteAt 0x7FFE#16)) =
      some (0x0200#16, 0x03#8) := by decide

/-! ### Sampling and entry: part C of 95_test_vectors.md. The entry is the step after the acceptance (log 16). -/

/-- The state of vector X1 with what the pins show next. -/
def due (v : Config.Variant) (x : Slot) : State :=
  { bg v with pc := 0x0150#16, sp := 0x2400#16, inte := true, env := { State.reset.env with slots := [x] } }

/-- What is seen after the sampling and the step after it. -/
def entered {α : Type} (s : State) (see : State → α) : Option α := after s.sample see

theorem test_sample_x1 :
    entered (due .i8080 { Slot.quiet with intr := true, ack1 := 0xCF#8 })
      (fun t => (t.pc, t.sp, t.byteAt 0x23FF#16, t.byteAt 0x23FE#16, t.inte)) =
      some (0x0008#16, 0x23FE#16, 0x01#8, 0x50#8, false) := by decide
theorem test_sample_x2 :
    (State.sample { due .i8080 { Slot.quiet with intr := true } with inte := false }).accepted = none := by decide
theorem test_sample_x3 :
    let t := State.sample { due .i8080 { Slot.quiet with intr := true } with eiPending := 1 }
    t.accepted = none ∧ t.eiPending = 0 := by decide
theorem test_sample_x4 :
    entered { due .i8080 { Slot.quiet with intr := true, ack1 := 0xD7#8 } with halted := true, pc := 0x0105#16 }
      (fun t => (t.pc, t.halted, t.byteAt 0x23FE#16)) = some (0x0010#16, false, 0x05#8) := by decide
theorem test_sample_x5 :
    entered (due .i8080 { Slot.quiet with intr := true, ack1 := 0xCD#8, ack2 := 0x00#8, ack3 := 0x30#8 })
      (fun t => (t.pc, t.byteAt 0x23FF#16, t.byteAt 0x23FE#16, t.inte)) =
      some (0x3000#16, 0x01#8, 0x50#8, false) := by decide
theorem test_sample_x6 :
    entered { due .i8085 Slot.quiet with masks := { State.reset.masks with r75 := true, m75 := false } }
      (fun t => (t.pc, t.byteAt 0x23FE#16, t.inte, t.masks.r75)) = some (0x003C#16, 0x50#8, false, false) := by
  decide
theorem test_sample_x7 :
    let t := State.sample { due .i8085 Slot.quiet with masks := { State.reset.masks with r75 := true } }
    t.accepted = none ∧ t.masks.r75 = true := by decide
theorem test_sample_x8 :
    entered { due .i8085 { Slot.quiet with req65 := true, req55 := true } with
        masks := { State.reset.masks with m65 := false, m55 := false } }
      (fun t => (t.pc, t.sp, t.inte)) = some (0x0034#16, 0x23FE#16, false) := by decide
theorem test_sample_x9 :
    entered { due .i8085 { Slot.quiet with trap := true } with inte := false } (fun t => (t.pc, t.byteAt 0x23FE#16)) =
      some (0x0024#16, 0x50#8) := by decide
theorem test_sample_x10 :
    entered (due .i8085 { Slot.quiet with intr := true, ack1 := 0xFF#8 }) (fun t => (t.pc, t.inte)) =
      some (0x0038#16, false) := by decide

/-- `TRAP` is accepted while the delay of `EI` runs; RST 5.5 waits for the end of the delay (R276). -/
theorem test_sample_trap_before_delay :
    (State.sample { due .i8085 { Slot.quiet with trap := true, req55 := true } with eiPending := 1 }).accepted =
      some (.restart .trap) := by decide
theorem test_sample_rst55 :
    (State.sample { due .i8085 { Slot.quiet with req55 := true, intr := true } with
      masks := { State.reset.masks with m55 := false } }).accepted = some (.restart .rst55) := by decide

/-! ### States that meet the hypotheses of the statements -/

/-- A memory map with a byte of ROM, one of nothing and one of a device (20_memory.md R58). -/
def mapped (v : Config.Variant) : State :=
  { bg v with cfg := { (bg v).cfg with memMap :=
      [{ base := 0x0000#16, size := 1, kind := .rom }, { base := 0x1000#16, size := 1, kind := .unpopulated },
       { base := 0xFFFF#16, size := 1, kind := .device }] } }

theorem test_witness_DecodeOfEncode :
    (Instr.mov .a .m).wellFormed .i8080 = true ∧ Instr.rim.wellFormed .i8085 = true ∧
    Instr.unused30.wellFormed .i8080 = true := by decide

theorem test_witness_HaltIsNoMove :
    ¬(Reg.m = .m ∧ Reg.b = .m) ∧ decodeOp .i8085 0x70#8 0#8 0#8 = .mov .m .b ∧
    ¬(Reg.a = .m ∧ Reg.m = .m) ∧ decodeOp .i8085 0x7E#8 0#8 0#8 = .mov .a .m ∧ decodeOp .i8085 0x76#8 0#8 0#8 = .hlt := by
  decide

theorem test_witness_OpcodeLengths :
    (decodeOp .i8080 0x00#8 0#8 0#8).isUnused = false ∧ (decodeOp .i8080 0xDB#8 0#8 0#8).isUnused = false ∧
    (decodeOp .i8080 0xFC#8 0#8 0#8).isUnused = false ∧ (decodeOp .i8085 0x20#8 0#8 0#8).isUnused = false := by decide

/-- The last byte of the instruction lies past the wrap of the address space, in ROM. -/
def wrapped : State :=
  .load [(0xFFFD#16, 0xC3#8), (0xFFFE#16, 0x7D#8), (0xFFFF#16, 0x6B#8)] { bg .i8080 with pc := 0xFFFD#16 }

theorem test_witness_StepRunsDecodedInstruction :
    wrapped.accepted = none ∧ wrapped.halted = false ∧
    (∀ k < 3, wrapped.kindAt (wrapped.pc + BitVec.ofNat 16 k) = .ram) ∧
    decode .i8080 [wrapped.byteAt wrapped.pc, wrapped.byteAt (wrapped.pc + 1#16), wrapped.byteAt (wrapped.pc + 2#16)] =
      .ok (.jmp 0x6B7D#16, []) ∧
    ∃ t, exec (.jmp 0x6B7D#16) { wrapped with pc := 0x0000#16 } = .next t :=
  ⟨rfl, rfl, by decide, rfl, _, rfl⟩

theorem test_witness_StepRunsDecodedInstruction_rom_and_fault :
    let s := State.load [(0x0000#16, 0x08#8)] { mapped .i8080 with pc := 0x0000#16 }
    s.accepted = none ∧ s.halted = false ∧ s.kindAt 0x0000#16 = .rom ∧
    decode .i8080 [s.byteAt 0x0000#16, s.byteAt 0x0001#16, s.byteAt 0x0002#16] = .ok (.unused08, [0#8, 0#8]) ∧
    exec .unused08 s = .fault (.illegalOpcode 0x08#8) := ⟨rfl, rfl, rfl, rfl, rfl⟩

/-- An operand byte that a device answers, and an opcode that nothing answers for. -/
theorem test_witness_StepRunsDecodedInstruction_free_bytes :
    let s : State := .load [(0xFFFE#16, 0x3E#8)] { mapped .i8080 with pc := 0xFFFE#16 }
    let e : State := { mapped .i8080 with pc := 0x1000#16 }
    (let r1 := s.memRead s.pc
     let r2 := r1.2.memRead (s.pc + 1#16)
     let r3 := r2.2.memRead (s.pc + 2#16)
     decode s.cfg.variant [r1.1, r2.1, r3.1] = .ok (.mvi .a r2.1, [r3.1]) ∧
     (encode (.mvi .a r2.1)).length = 2 ∧ r2.2.env.history = [.deviceRead 0xFFFF#16 r2.1]) ∧
    (let r1 := e.memRead e.pc
     let r2 := r1.2.memRead (e.pc + 1#16)
     let r3 := r2.2.memRead (e.pc + 2#16)
     ∃ i rest, decode e.cfg.variant [r1.1, r2.1, r3.1] = .ok (i, rest)) := by
  refine ⟨⟨rfl, rfl, rfl⟩, ?_⟩
  exact decode_three _ _ _ _

/-- One byte and three bytes, with the last byte at a device or where nothing stands. -/
theorem test_witness_StepRunsDecodedInstruction_lengths :
    let s : State := .load [(0xFFFD#16, 0x32#8), (0xFFFE#16, 0x00#8)] { mapped .i8080 with pc := 0xFFFD#16 }
    let r1 := s.memRead s.pc
    let r2 := r1.2.memRead (s.pc + 1#16)
    let r3 := r2.2.memRead (s.pc + 2#16)
    decode s.cfg.variant [r1.1, r2.1, r3.1] = .ok (.sta (le16 0x00#8 r3.1), []) ∧
    (encode (.sta (le16 0x00#8 r3.1))).length = 3 ∧ (encode .nop).length = 1 ∧
    decode s.cfg.variant [(mapped .i8080).byteAt 0x0100#16, 0#8, 0#8] = .ok (.nop, [0#8, 0#8]) := ⟨rfl, rfl, rfl, rfl⟩

theorem test_witness_HaltedStepOnlySamples :
    let s := { due .i8085 Slot.quiet with halted := true }
    s.accepted = none ∧ s.halted = true ∧ s.nextSlot.reset = false := by decide

theorem test_witness_SuppliedInstructionEntry :
    let s (b : Byte) := { due .i8080 Slot.quiet with accepted := some (.supplied b 0#8 0#8) }
    (s 0xC7#8).accepted = some (.supplied (0b11#2 ++ 0b000#3 ++ 0b111#3) 0#8 0#8) ∧
    (s 0xFF#8).accepted = some (.supplied (0b11#2 ++ 0b111#3 ++ 0b111#3) 0#8 0#8) ∧
    (s 0xFF#8).nextSlot.reset = false ∧
    (∃ t, exec (decodeOp .i8080 0x00#8 0#8 0#8) (s 0x00#8).enterInterrupt = .next t) ∧
    exec (decodeOp .i8080 0x08#8 0#8 0#8) (s 0x08#8).enterInterrupt = .fault (.illegalOpcode 0x08#8) :=
  ⟨rfl, rfl, rfl, ⟨_, rfl⟩, rfl⟩

theorem test_witness_InternalRestartEntry (r : Restart) :
    after { due .i8085 Slot.quiet with accepted := some (.restart r), masks := { State.reset.masks with r75 := true } }
      (fun t => (t.pc, t.masks.r75)) =
      some (match r with
        | .trap => (0x0024#16, true) | .rst55 => (0x002C#16, true) | .rst65 => (0x0034#16, true)
        | .rst75 => (0x003C#16, false)) := by cases r <;> decide

theorem test_witness_Sampling (v : Config.Variant) :
    let s := due v { Slot.quiet with intr := true, ack1 := 0xFF#8 }
    s.cfg.variant = v ∧ s.nextSlot.reset = false ∧ s.accepted = none ∧
    s.sample.accepted = some (.supplied 0xFF#8 0#8 0#8) := by cases v <;> decide

theorem test_witness_EnableIsDelayed (d : Config.EiDelay) :
    let s := State.load [(0x0150#16, 0xFB#8)] { due .i8085 { Slot.quiet with intr := true } with
      eiPending := 1, cfg := { (bg .i8085).cfg with eiDelay := d } }
    s.accepted = none ∧ s.nextSlot.reset = false ∧ s.nextSlot.trap = false ∧ 0 < s.eiPending ∧ s.halted = false ∧
    s.fetch.1 = .ei ∧ after s (fun t => (t.accepted, t.inte, t.eiPending + 1)) = some (none, true, d.count) := by
  cases d <;> decide

/-- Ends of a run: nothing requested; on the I8080 the I8085's requests; on the I8085 requests that are masked, or come
while interrupts are off; a level that is gone when the delay of `EI` is over. -/
theorem test_witness_EndOfRunIsFinal :
    State.ended { due .i8080 Slot.quiet with halted := true } = true ∧
    State.ended { due .i8080 { Slot.quiet with req65 := true, req55 := true, edge75 := true } with halted := true } =
      true ∧
    State.ended { due .i8085 { Slot.quiet with req65 := true, req55 := true, edge75 := true } with halted := true } =
      true ∧
    State.ended { due .i8085 { Slot.quiet with intr := true } with halted := true, inte := false } = true ∧
    State.ended { due .i8085 { Slot.quiet with intr := true } with halted := true, eiPending := 1 } = true := by decide

/-- No ends of a run: an unmasked request, also one latched before, also an edge in the delay of `EI`. -/
theorem test_witness_EndOfRunIsFinal_not_ended :
    let unmasked : Masks := { State.reset.masks with m55 := false, m75 := false }
    let s (x : Slot) : State := { due .i8085 x with halted := true, masks := unmasked }
    (s Slot.quiet).halted = true ∧ (s Slot.quiet).accepted = none ∧ (s Slot.quiet).inteLate = false ∧
    (∀ x ∈ (s { Slot.quiet with req55 := true }).env.slots, x.reset = false) ∧
    (s { Slot.quiet with req55 := true }).ended = false ∧
    State.ended { s Slot.quiet with masks := { unmasked with r75 := true } } = false ∧
    State.ended { s { Slot.quiet with edge75 := true } with eiPending := 1 } = false ∧
    State.ended { s { Slot.quiet with trap := true } with inte := false } = false := by decide

theorem test_witness_ResetInputAssigns (v : Config.Variant) :
    let s := { due v { Slot.quiet with reset := true } with halted := true, masks := { State.reset.masks with sod := true } }
    s.nextSlot.reset = true ∧ s.sample.pc = 0x0000#16 ∧ s.sample.halted = false ∧
    s.sample.env.history = (match v with | .i8080 => [] | .i8085 => [.serial false]) := by cases v <;> decide

theorem test_witness_StepKeepsLegal :
    let s := State.load [(0x0100#16, 0xFB#8)] (bg .i8085)
    s.legal = true ∧ after s (fun t => t.legal) = some true := by decide

theorem test_witness_StepKeepsParametersAndRom :
    let s := State.load [(0x0100#16, 0x77#8)] (mapped .i8080)
    s.kindAt 0x0000#16 = .rom ∧ s.kindAt 0x1000#16 = .unpopulated ∧ s.kindAt 0xFFFF#16 = .device ∧
    after s (fun t => t.byteAt 0x0000#16) = some 0x00#8 := by decide

theorem test_witness_StepsStopOnlyAtUnusedOpcodes :
    step (.load [(0x0100#16, 0x20#8)] (bg .i8080)) = .fault (.illegalOpcode 0x20#8) ∧
    step (.load [(0x0100#16, 0x10#8)] { aliasing with cfg := { aliasing.cfg with variant := .i8085 } }) =
      .fault (.illegalOpcode 0x10#8) := ⟨rfl, rfl⟩

theorem test_witness_HistoryOnlyGrows :
    after (.load [(0x0100#16, 0xD3#8)] { bg .i8080 with env := { State.reset.env with history := [.serial true] } })
      (fun t => t.env.history) = some [.serial true, .output 0x00#8 0x00#8] := by decide

theorem test_witness_writers :
    (∃ t, exec (.inx .hl) (bg .i8080) = .next t) ∧ (Instr.inx .hl).writesSzap = false ∧
    (∃ t, exec (.inr .a) (bg .i8080) = .next t) ∧ (Instr.inr .a).writesCy = false ∧
    (∃ t, exec .nop (bg .i8080) = .next t) ∧ Instr.nop.writesSp = false ∧ Instr.nop.writesPc = false ∧
    Instr.nop.writesMemory = false ∧ Instr.nop ≠ .ei ∧ Instr.nop ≠ .di ∧ Instr.nop ≠ .hlt ∧ Instr.nop ≠ .sim ∧
    ∀ p, Instr.nop ≠ .inPort p :=
  ⟨⟨_, rfl⟩, rfl, ⟨_, rfl⟩, rfl, ⟨_, rfl⟩, rfl, rfl, rfl, by decide, by decide, by decide, by decide,
    fun _ h => Instr.noConfusion h⟩

/-- A call and a return, with and without a condition that holds, a push and a pop: the clauses of the statement on
`SP`. -/
theorem test_witness_StackPointerWriters :
    (Instr.rst 7#3).isCall = true ∧ (∀ cond w, Instr.rst 7#3 ≠ .ccc cond w) ∧
    (∃ t, exec (.rst 7#3) (bg .i8080) = .next t) ∧
    Instr.cz 0x1234#16 = .ccc .z 0x1234#16 ∧ (bg .i8080).flags.holds .z = false ∧
    (∃ t, exec (.cz 0x1234#16) (bg .i8080) = .next t) ∧
    Instr.cnz 0x1234#16 = .ccc .nz 0x1234#16 ∧ (bg .i8080).flags.holds .nz = true ∧
    (∃ t, exec (.cnz 0x1234#16) (bg .i8080) = .next t) ∧
    Instr.ret.isReturn = true ∧ (∀ cond, Instr.ret ≠ .rcc cond) ∧ (∃ t, exec .ret (bg .i8080) = .next t) ∧
    Instr.rz = .rcc .z ∧ (∃ t, exec .rz (bg .i8080) = .next t) ∧
    Instr.rnz = .rcc .nz ∧ (∃ t, exec .rnz (bg .i8080) = .next t) ∧
    (∃ t, exec (.push .psw) (bg .i8080) = .next t) ∧ (∃ t, exec (.pop .psw) (bg .i8080) = .next t) :=
  ⟨rfl, (fun cond w h => by cases cond <;> cases h), ⟨_, rfl⟩, rfl, rfl, ⟨_, rfl⟩, rfl, rfl, ⟨_, rfl⟩, rfl,
    (fun cond h => by cases cond <;> cases h), ⟨_, rfl⟩, rfl, ⟨_, rfl⟩, rfl, ⟨_, rfl⟩, ⟨_, rfl⟩, ⟨_, rfl⟩⟩

theorem test_witness_MemoryCycles :
    (mapped .i8080).kindAt 0x0000#16 = .rom ∧ (mapped .i8080).kindAt 0x0001#16 = .ram ∧
    (mapped .i8080).kindAt 0x1000#16 = .unpopulated ∧ (mapped .i8080).kindAt 0xFFFF#16 = .device := by decide

/-- Both clauses of the statements on an 8-bit operand: a register, and `M` at the ends of the address space. -/
theorem test_witness_OperandAccess :
    Reg.b ≠ .m ∧ Reg.a ≠ .m ∧ Reg.a ≠ Reg.b ∧ RegPair.sp ≠ RegPair.bc ∧
    (writeReg .m 0x12#8 (bg .i8080)).byteAt 0x0000#16 = 0x12#8 ∧
    (writeReg .m 0x12#8 { bg .i8080 with regs := { zeroRegs with h := 0xFF#8, l := 0xFF#8 } }).byteAt 0xFFFF#16 =
      0x12#8 := by decide

theorem test_witness_Moves (r : Reg) :
    (∃ t, exec (.mov r .b) (bg .i8080) = .next t) ∧ ¬(r = .m ∧ Reg.b = .m) ∧
    (∃ t, exec (.mov .b r) (bg .i8080) = .next t) ∧ ¬(Reg.b = .m ∧ r = .m) ∧
    (∃ t, exec (.mvi r 0xFF#8) (bg .i8080) = .next t) ∧
    (∃ t, exec (.inr r) (bg .i8080) = .next t) ∧ (∃ t, exec (.dcr r) (bg .i8080) = .next t) ∧ (r = .m ∨ r ≠ .m) :=
  ⟨⟨_, rfl⟩, (fun h => by cases h.2), ⟨_, rfl⟩, (fun h => by cases h.1), ⟨_, rfl⟩, ⟨_, rfl⟩, ⟨_, rfl⟩, Decidable.em _⟩

/-- 99 + 99 + 1 and 0 + 0, by each of the four additions. -/
theorem test_witness_DaaGivesDecimalSum :
    let s : State := { bg .i8080 with
      regs := { zeroRegs with a := 0x99#8, b := 0x99#8 }, flags := { clearFlags with cy := true } }
    s.cfg.acAdd = .standard ∧ s.regs.a.toNat = 16 * 9 + 9 ∧ (0x99#8 : Byte).toNat = 16 * 9 + 9 ∧
    (readReg .b s).1 = 0x99#8 ∧ s.flags.cy = true ∧ zeroRegs.a.toNat = 16 * 0 + 0 ∧ (0x00#8 : Byte).toNat = 16 * 0 + 0 ∧
    (readReg .b (bg .i8080)).1 = 0x00#8 := by decide

theorem test_witness_DefaultParameterFunctions (v : Config.Variant) :
    (bg v).cfg.acAdd = .standard ∧ (bg v).cfg.acSub = .standard ∧ (bg v).cfg.acAna = .standard ∧
    (bg v).cfg.daa = .standard ∧ (bg v).cfg.variant = v := by cases v <;> decide

theorem test_witness_Pushes : (bg .i8080).cfg.fxBits = .fixed false false true := rfl

theorem test_witness_StackLaws :
    let s : State := { bg .i8080 with sp := 0x0001#16 }
    s.kindAt (s.sp - 1#16) = .ram ∧ s.kindAt (s.sp - 2#16) = .ram ∧ StackPair.hl ≠ .psw ∧ StackPair.bc ≠ .psw := by
  decide

theorem test_witness_InputAndOutput :
    answering.cfg.ioIn.find? (fun y => y.position = answering.env.inputs ∧ y.port = 0x2A#8) =
      some { position := 0, port := 0x2A#8, value := 0x5E#8 } := by decide

theorem test_witness_HaltAndNop : (bg .i8080).accepted = none ∧ (bg .i8080).nextSlot.reset = false := by decide

theorem test_witness_SimAndRim :
    let s (a : Byte) : State := { due .i8085 { Slot.quiet with sid := true } with regs := { zeroRegs with a := a } }
    (s 0x00#8).cfg.variant = .i8085 ∧ (s 0x00#8).regs.a.getLsbD 3 = (s 0x00#8).cfg.simMseLevel ∧
    (s 0xFF#8).regs.a.getLsbD 3 ≠ (s 0xFF#8).cfg.simMseLevel ∧ (s 0x00#8).env.slots ≠ [] := by decide

theorem test_witness_UnusedOpcodesAct :
    (bg .i8080).cfg.illegal = .fault ∧ (bg .i8085).cfg.variant = .i8085 ∧ aliasing.cfg.illegal = .aliased ∧
    aliasing.cfg.variant = .i8080 ∧ (bg .i8080).cfg.variant = .i8080 ∧
    let rows (w : Word) : List (Instr × Byte) :=
      [(.unused08, 0x08#8), (.unused10, 0x10#8), (.unused18, 0x18#8), (.unused20, 0x20#8), (.unused28, 0x28#8),
       (.unused30, 0x30#8), (.unused38, 0x38#8), (.unusedCB w, 0xCB#8), (.unusedD9, 0xD9#8), (.unusedDD w, 0xDD#8),
       (.unusedED w, 0xED#8), (.unusedFD w, 0xFD#8)]
    (.unused08, 0x08#8) ∈ rows 0x0000#16 ∧ (.unusedFD 0xFFFF#16, 0xFD#8) ∈ rows 0xFFFF#16 := by decide

end Sys2Proof.Tests
end

section
/-! The opcode of what a byte decodes to is that byte (30_encoding.md R84); from it follow the unused opcodes (R93) and
the length of every defined opcode (R81). -/

namespace Sys2Proof.Encoding

/-! ### The fields of an opcode -/

/-- The fields of an opcode side by side (R83). -/
theorem toNat_eq_fields (b : Byte) :
    b.toNat = 64 * (fieldQuarter b).toNat + 8 * (fieldMid b).toNat + (fieldLow b).toNat := by
  simp only [fieldQuarter, fieldMid, fieldLow, BitVec.extractLsb'_toNat, Nat.shiftRight_eq_div_pow]
  omega

/-- The middle field holds a pair and bit 3 (R83). -/
theorem toNat_fieldMid (b : Byte) :
    (fieldMid b).toNat = 2 * (fieldPair b).toNat + (fieldBit3 b).toNat := by
  simp only [fieldMid, fieldPair, fieldBit3, BitVec.extractLsb'_toNat, Nat.shiftRight_eq_div_pow,
    BitVec.getLsbD, Nat.toNat_testBit]
  omega

@[simp] theorem code_regOfCode (c : BitVec 3) : (Reg.ofCode c).code = c := by revert c; decide
@[simp] theorem code_regPairOfCode (c : BitVec 2) : (RegPair.ofCode c).code = c := by revert c; decide
@[simp] theorem code_stackPairOfCode (c : BitVec 2) : (StackPair.ofCode c).code = c := by revert c; decide

@[simp] theorem toNat_opDS (dst src : Reg) : (opDS dst src).toNat = 64 + 8 * dst.code.toNat + src.code.toNat := by
  cases dst <;> cases src <;> rfl

@[simp] theorem toNat_opD (dst : Reg) (x : BitVec 3) : (opD dst x).toNat = 8 * dst.code.toNat + x.toNat := by
  revert x; cases dst <;> decide

@[simp] theorem toNat_opS (o : BitVec 3) (src : Reg) : (opS o src).toNat = 128 + 8 * o.toNat + src.code.toNat := by
  revert o; cases src <;> decide

@[simp] theorem toNat_opRP (p : RegPair) (x : BitVec 4) : (opRP p x).toNat = 16 * p.code.toNat + x.toNat := by
  revert x; cases p <;> decide

@[simp] theorem toNat_opRPQ (p : StackPair) (x : BitVec 4) :
    (opRPQ p x).toNat = 192 + 16 * p.code.toNat + x.toNat := by
  revert x; cases p <;> decide

@[simp] theorem toNat_rstOpcode (n : BitVec 3) : (0b11#2 ++ n ++ 0b111#3 : Byte).toNat = 199 + 8 * n.toNat := by
  revert n; decide

/-- The values of a three-bit field: the rows and columns of the opcode map (R90, R91). -/
theorem toNat_three_bits (c : BitVec 3) :
    c.toNat = 0 ∨ c.toNat = 1 ∨ c.toNat = 2 ∨ c.toNat = 3 ∨ c.toNat = 4 ∨ c.toNat = 5 ∨ c.toNat = 6 ∨ c.toNat = 7 := by
  omega

theorem toNat_two_bits (c : BitVec 2) : c.toNat = 0 ∨ c.toNat = 1 ∨ c.toNat = 2 ∨ c.toNat = 3 := by omega

/-! ### The opcode of a decoded instruction -/

/-- The opcode of an instruction, as a number. -/
def opcodeNat (i : Instr) : Nat := ((encode i).headD 0#8).toNat

theorem opcodeNat_decodeAccReg (op : BitVec 3) (r : Reg) :
    opcodeNat (decodeAccReg op r) = 128 + 8 * op.toNat + r.code.toNat := by
  rcases toNat_three_bits op with h | h | h | h | h | h | h | h <;> simp [decodeAccReg, opcodeNat, encode, h]

theorem opcodeNat_decodeAccImm (op : BitVec 3) (v : Byte) :
    opcodeNat (decodeAccImm op v) = 198 + 8 * op.toNat := by
  rcases toNat_three_bits op with h | h | h | h | h | h | h | h <;> simp [decodeAccImm, opcodeNat, encode, opImm, h]

/-- The first quarter of the opcode map, column by column. -/
theorem opcodeNat_decodeQuarter0 (v : Config.Variant) (b1 b2 b3 : Byte) :
    opcodeNat (decodeQuarter0 v b1 b2 b3) = 8 * (fieldMid b1).toNat + (fieldLow b1).toNat := by
  have hmid := toNat_fieldMid b1
  have hrow := toNat_three_bits (fieldMid b1)
  rcases toNat_three_bits (fieldLow b1) with hlow | hlow | hlow | hlow | hlow | hlow | hlow | hlow
  · cases v <;> rcases hrow with h | h | h | h | h | h | h | h <;>
      simp [decodeQuarter0, hlow, opcodeNat, encode, h]
  · cases hbit : fieldBit3 b1 <;> simp [decodeQuarter0, hlow, opcodeNat, encode, with16, hmid, hbit] <;> omega
  · rcases hrow with h | h | h | h | h | h | h | h <;>
      simp [decodeQuarter0, hlow, opcodeNat, encode, with16, opRPX, IndexPair.code, h]
  · cases hbit : fieldBit3 b1 <;> simp [decodeQuarter0, hlow, opcodeNat, encode, hmid, hbit] <;> omega
  · simp [decodeQuarter0, hlow, opcodeNat, encode]
  · simp [decodeQuarter0, hlow, opcodeNat, encode]
  · simp [decodeQuarter0, hlow, opcodeNat, encode]
  · rcases hrow with h | h | h | h | h | h | h | h <;> simp [decodeQuarter0, hlow, opcodeNat, encode, h]

/-- The last quarter of the opcode map, column by column. -/
theorem opcodeNat_decodeQuarter3 (b1 b2 b3 : Byte) :
    opcodeNat (decodeQuarter3 b1 b2 b3) = 192 + 8 * (fieldMid b1).toNat + (fieldLow b1).toNat := by
  have hmid := toNat_fieldMid b1
  have hrow := toNat_three_bits (fieldMid b1)
  have hpair := toNat_two_bits (fieldPair b1)
  rcases toNat_three_bits (fieldLow b1) with hlow | hlow | hlow | hlow | hlow | hlow | hlow | hlow
  · rcases hrow with h | h | h | h | h | h | h | h <;>
      simp [decodeQuarter3, hlow, opcodeNat, encode, opCC, Cond.code, h]
  · cases hbit : fieldBit3 b1
    · simp [decodeQuarter3, hlow, opcodeNat, encode, hmid, hbit]; omega
    · rcases hpair with h | h | h | h <;> simp [decodeQuarter3, hlow, opcodeNat, encode, hmid, hbit, h]
  · rcases hrow with h | h | h | h | h | h | h | h <;>
      simp [decodeQuarter3, hlow, opcodeNat, encode, with16, opCC, Cond.code, h]
  · rcases hrow with h | h | h | h | h | h | h | h <;>
      simp [decodeQuarter3, hlow, opcodeNat, encode, with16, h]
  · rcases hrow with h | h | h | h | h | h | h | h <;>
      simp [decodeQuarter3, hlow, opcodeNat, encode, with16, opCC, Cond.code, h]
  · cases hbit : fieldBit3 b1
    · simp [decodeQuarter3, hlow, opcodeNat, encode, hmid, hbit]; omega
    · rcases hpair with h | h | h | h <;> simp [decodeQuarter3, hlow, opcodeNat, encode, with16, hmid, hbit, h]
  · simp [decodeQuarter3, hlow, opcodeNat_decodeAccImm]; omega
  · simp [decodeQuarter3, hlow, opcodeNat, encode]; omega

/-- The opcode of what a byte decodes to is that byte. -/
theorem opcodeNat_decodeOp (v : Config.Variant) (b1 b2 b3 : Byte) : opcodeNat (decodeOp v b1 b2 b3) = b1.toNat := by
  have hb := toNat_eq_fields b1
  rcases toNat_two_bits (fieldQuarter b1) with hq | hq | hq | hq <;> simp only [decodeOp, hq]
  · rw [opcodeNat_decodeQuarter0]; omega
  · split
    next h => subst h; rfl
    next => simp [opcodeNat, encode]; omega
  · rw [opcodeNat_decodeAccReg, code_regOfCode]; omega
  · rw [opcodeNat_decodeQuarter3]; omega

/-! ### The length of an encoding -/

open Laws in
/-- The laws of the single instructions together: every encoding is as long as its opcode says (R81). -/
theorem encodedLength (i : Instr) : EncodedLength.Statement i := by
  cases i <;> simp only [EncodedLength.mov, EncodedLength.mvi, EncodedLength.lxi, EncodedLength.lda, EncodedLength.sta,
    EncodedLength.lhld, EncodedLength.shld, EncodedLength.ldax, EncodedLength.stax, EncodedLength.xchg,
    EncodedLength.add, EncodedLength.adi, EncodedLength.adc, EncodedLength.aci, EncodedLength.sub,
    EncodedLength.sui, EncodedLength.sbb, EncodedLength.sbi, EncodedLength.inr, EncodedLength.dcr,
    EncodedLength.inx, EncodedLength.dcx, EncodedLength.dad, EncodedLength.daa, EncodedLength.ana,
    EncodedLength.ani, EncodedLength.xra, EncodedLength.xri, EncodedLength.ora, EncodedLength.ori,
    EncodedLength.cmp, EncodedLength.cpi, EncodedLength.rlc, EncodedLength.rrc, EncodedLength.ral,
    EncodedLength.rar, EncodedLength.cma, EncodedLength.cmc, EncodedLength.stc, EncodedLength.jmp,
    EncodedLength.jnz, EncodedLength.jz, EncodedLength.jnc, EncodedLength.jc, EncodedLength.jpo,
    EncodedLength.jpe, EncodedLength.jp, EncodedLength.jm, EncodedLength.call, EncodedLength.cnz,
    EncodedLength.cz, EncodedLength.cnc, EncodedLength.cc, EncodedLength.cpo, EncodedLength.cpe,
    EncodedLength.cp, EncodedLength.cm, EncodedLength.ret, EncodedLength.rnz, EncodedLength.rz,
    EncodedLength.rnc, EncodedLength.rc, EncodedLength.rpo, EncodedLength.rpe, EncodedLength.rp,
    EncodedLength.rm, EncodedLength.rst, EncodedLength.pchl, EncodedLength.push, EncodedLength.pop,
    EncodedLength.xthl, EncodedLength.sphl, EncodedLength.inPort, EncodedLength.outPort, EncodedLength.ei,
    EncodedLength.di, EncodedLength.hlt, EncodedLength.nop, EncodedLength.sim, EncodedLength.rim,
    EncodedLength.unused08, EncodedLength.unused10, EncodedLength.unused18, EncodedLength.unused28,
    EncodedLength.unused38, EncodedLength.unusedCB, EncodedLength.unusedD9, EncodedLength.unusedDD,
    EncodedLength.unusedED, EncodedLength.unusedFD, EncodedLength.unused20, EncodedLength.unused30]

/-- The bytes of what a byte decodes to begin with that byte, which also gives their number. -/
theorem encode_decodeOp (v : Config.Variant) (b1 b2 b3 : Byte) :
    ∃ rest, encode (decodeOp v b1 b2 b3) = b1 :: rest ∧ opLength b1 = rest.length + 1 := by
  obtain ⟨op, rest, henc, hlen, -⟩ := encodedLength (decodeOp v b1 b2 b3)
  have hop : op.toNat = b1.toNat := by simpa [opcodeNat, henc] using opcodeNat_decodeOp v b1 b2 b3
  obtain rfl := BitVec.eq_of_toNat_eq hop
  exact ⟨rest, henc, hlen⟩

theorem head_encode_decodeOp (v : Config.Variant) (b1 b2 b3 : Byte) :
    (encode (decodeOp v b1 b2 b3)).head? = some b1 := by
  obtain ⟨rest, henc, -⟩ := encode_decodeOp v b1 b2 b3
  rw [henc, List.head?_cons]

theorem length_encode_decodeOp (v : Config.Variant) (b1 b2 b3 : Byte) :
    (encode (decodeOp v b1 b2 b3)).length = opLength b1 := by
  obtain ⟨rest, henc, hlen⟩ := encode_decodeOp v b1 b2 b3
  rw [henc, List.length_cons, hlen]

/-! ### The unused opcodes -/

/-- The unused opcodes of the I8085 (R93): those of both variants. -/
def commonUnused : List Byte :=
  [0x08#8, 0x10#8, 0x18#8, 0x28#8, 0x38#8, 0xCB#8, 0xD9#8, 0xDD#8, 0xED#8, 0xFD#8]

/-- An unused row has an opcode unused on both variants, or `20h` or `30h`. -/
theorem head_encode_of_isUnused (i : Instr) (h : i.isUnused = true) :
    ∃ b, (encode i).head? = some b ∧ (b ∈ commonUnused ∨ b = 0x20#8 ∨ b = 0x30#8) := by
  cases i with
  | unused08 | unused10 | unused18 | unused28 | unused38 | unusedCB | unusedD9 | unusedDD | unusedED | unusedFD
  | unused20 | unused30 => exact ⟨_, rfl, by decide⟩
  | _ => cases h

theorem opcode_of_isUnused {v : Config.Variant} {b1 b2 b3 : Byte} (h : (decodeOp v b1 b2 b3).isUnused = true) :
    b1 ∈ commonUnused ∨ b1 = 0x20#8 ∨ b1 = 0x30#8 := by
  obtain ⟨b, hhead, hb⟩ := head_encode_of_isUnused _ h
  obtain rfl : b1 = b := by simpa [head_encode_decodeOp] using hhead
  exact hb

theorem isUnused_of_mem_commonUnused (v : Config.Variant) {b1 : Byte} (b2 b3 : Byte) (h : b1 ∈ commonUnused) :
    (decodeOp v b1 b2 b3).isUnused = true := by
  simp only [commonUnused, List.mem_cons, List.not_mem_nil, or_false] at h
  rcases h with rfl | rfl | rfl | rfl | rfl | rfl | rfl | rfl | rfl | rfl <;> rfl

theorem isUnused_i8080_iff (b1 b2 b3 : Byte) :
    (decodeOp .i8080 b1 b2 b3).isUnused = true ↔ b1 ∈ commonUnused ∨ b1 = 0x20#8 ∨ b1 = 0x30#8 := by
  refine ⟨opcode_of_isUnused, ?_⟩
  rintro (h | rfl | rfl)
  · exact isUnused_of_mem_commonUnused _ b2 b3 h
  · rfl
  · rfl

theorem isUnused_i8085_iff (b1 b2 b3 : Byte) :
    (decodeOp .i8085 b1 b2 b3).isUnused = true ↔ b1 ∈ commonUnused := by
  refine ⟨fun h => ?_, isUnused_of_mem_commonUnused _ b2 b3⟩
  rcases opcode_of_isUnused h with hb | rfl | rfl
  · exact hb
  · cases h
  · cases h

theorem decodeOp_eq_rim_iff (b1 b2 b3 : Byte) : decodeOp .i8085 b1 b2 b3 = .rim ↔ b1 = 0x20#8 := by
  refine ⟨fun h => ?_, fun h => h ▸ rfl⟩
  simpa [h, encode, eq_comm] using head_encode_decodeOp .i8085 b1 b2 b3

theorem decodeOp_eq_sim_iff (b1 b2 b3 : Byte) : decodeOp .i8085 b1 b2 b3 = .sim ↔ b1 = 0x30#8 := by
  refine ⟨fun h => ?_, fun h => h ▸ rfl⟩
  simpa [h, encode, eq_comm] using head_encode_decodeOp .i8085 b1 b2 b3

/-- Settles O5: the opcode of an unused row is one of twelve, of which `20h` and `30h` are unused on the I8080 only. -/
theorem unusedOpcodes : Obligations.UnusedOpcodes := by
  intro b1 b2 b3
  refine ⟨?_, isUnused_i8085_iff b1 b2 b3, decodeOp_eq_rim_iff b1 b2 b3, decodeOp_eq_sim_iff b1 b2 b3⟩
  rw [isUnused_i8080_iff]
  simp only [commonUnused, List.mem_cons, List.not_mem_nil, or_assoc, or_left_comm, or_comm]

/-! ### The lengths of the defined opcodes -/

/-- Settles O6: the encoding has the length that the opcode alone gives; the lists leave out only opcodes that are
unused on both variants. -/
theorem opcodeLengths : Obligations.OpcodeLengths := by
  unfold Obligations.OpcodeLengths
  intro three two v b1 b2 b3 hdefined
  have hcommon : b1 ∉ commonUnused := fun h => by
    simp [isUnused_of_mem_commonUnused v b2 b3 h] at hdefined
  have hlists : ∀ b : Byte, b ∉ commonUnused → opLength b = if b ∈ three then 3 else if b ∈ two then 2 else 1 := by
    decide
  rw [length_encode_decodeOp]
  exact hlists b1 hcommon

end Sys2Proof.Encoding
end

section
/-! The data-movement instructions (40_data_transfer.md): what a read, a register write and a store leave unchanged
(20_memory.md R50, R58), each meaning as one equation, and from these the statements. -/

namespace Sys2Proof.DataTransfer

open Sys2Proof.Machine

/-! ### What the shared operations leave unchanged -/

section

variable (s : State)

/-- No byte changes where the memory itself does not. -/
theorem keepsMemory_of_mem_eq {s t : State} (h : t.mem = s.mem) : KeepsMemory s t := State.byteAt_congr _ _ h

@[simp] theorem readReg_hl (r : Reg) : (readReg r s).2.hl = s.hl := by
  simp only [State.hl, readReg_regs]

theorem writeReg_register_mem {r : Reg} (v : Byte) (h : r ≠ .m) : (writeReg r v s).mem = s.mem := by
  rw [writeReg_register r v s h, State.setRegs_mem]

theorem writeReg_register_env {r : Reg} (v : Byte) (h : r ≠ .m) : (writeReg r v s).env = s.env := by
  rw [writeReg_register r v s h, State.setRegs_env]

/-- A single store. -/
theorem memWrite_stored (a : Word) (v : Byte) : Stored s (s.memWrite a v) [(a, v)] := by
  refine ⟨by apply State.ext <;> simp, ?_, fun x => ?_⟩
  · rw [State.memWrite_env]
    by_cases h : s.kindAt a = .device <;> simp [State.writeEvents, h]
  · rw [State.memWrite_byteAt]
    by_cases h : x = a <;> simp [h]

/-! ### A pair written byte by byte (10_state.md R22) -/

theorem setBc_le16 (lo hi : Byte) : s.setBc (le16 lo hi) = { s with regs := { s.regs with b := hi, c := lo } } := by
  simp only [State.setBc, State.setRegs, hiByte_le16, loByte_le16]

theorem setDe_le16 (lo hi : Byte) : s.setDe (le16 lo hi) = { s with regs := { s.regs with d := hi, e := lo } } := by
  simp only [State.setDe, State.setRegs, hiByte_le16, loByte_le16]

theorem setHl_le16 (lo hi : Byte) : s.setHl (le16 lo hi) = { s with regs := { s.regs with h := hi, l := lo } } := by
  simp only [State.setHl, State.setRegs, hiByte_le16, loByte_le16]

/-! ### The meanings, one equation each -/

theorem exec_mov (dst src : Reg) :
    exec (.mov dst src) s = .next (writeReg dst (readReg src s).1 (readReg src s).2) := rfl

theorem exec_mvi (dst : Reg) (v : Byte) : exec (.mvi dst v) s = .next (writeReg dst v s) := rfl

theorem exec_lxi (p : RegPair) (w : Word) : exec (.lxi p w) s = .next (writePair p w s) := rfl

theorem exec_sta (addr : Word) : exec (.sta addr) s = .next (s.memWrite addr s.regs.a) := rfl

/-- `STAX` is `STA` at the address in the pair. -/
theorem exec_stax (p : IndexPair) : exec (.stax p) s = exec (.sta (indexAddr p s)) s := rfl

theorem exec_shld (addr : Word) :
    exec (.shld addr) s = .next ((s.memWrite addr s.regs.l).memWrite (addr + 1#16) s.regs.h) := rfl

/-- `LDA`: `A` and what the read itself changes (R113). -/
theorem exec_lda (addr : Word) :
    exec (.lda addr) s =
      .next { s with regs := { s.regs with a := (s.memRead addr).1 }, env := (s.memRead addr).2.env } := by
  have hload : (s.memRead addr).2.setA (s.memRead addr).1 =
      { s with regs := { s.regs with a := (s.memRead addr).1 }, env := (s.memRead addr).2.env } := by
    apply State.ext <;> simp [State.setA]
  exact congrArg Host.Outcome.next hload

/-- `LDAX` is `LDA` at the address in the pair. -/
theorem exec_ldax (p : IndexPair) : exec (.ldax p) s = exec (.lda (indexAddr p s)) s := rfl

/-- `LHLD`: `H`, `L` and what its two reads change (R115). -/
theorem exec_lhld (addr : Word) :
    let lo := s.memRead addr
    let hi := lo.2.memRead (addr + 1#16)
    exec (.lhld addr) s = .next { s with regs := { s.regs with h := hi.1, l := lo.1 }, env := hi.2.env } := by
  intro lo hi
  have hload : hi.2.setHl (le16 lo.1 hi.1) =
      { s with regs := { s.regs with h := hi.1, l := lo.1 }, env := hi.2.env } := by
    rw [setHl_le16]
    apply State.ext <;> simp [lo, hi]
  exact congrArg Host.Outcome.next hload

/-- `XCHG` register by register (R119). -/
theorem exec_xchg :
    exec .xchg s =
      .next { s with regs := { s.regs with h := s.regs.d, l := s.regs.e, d := s.regs.h, e := s.regs.l } } := by
  have hswap : (s.setHl s.de).setDe s.hl =
      { s with regs := { s.regs with h := s.regs.d, l := s.regs.e, d := s.regs.h, e := s.regs.l } } := by
    rw [State.de, State.hl, setHl_le16, setDe_le16]
  exact congrArg Host.Outcome.next hswap

end

/-! ### The statements -/

/-- Settles O29: the source is read, which changes the environment at most, then the destination is written. The
premise is not needed: it shuts out a term that is no `MOV`. -/
theorem movCopies : Obligations.MovCopies := by
  intro s dst src _
  refine ⟨rfl, rfl, _, exec_mov s dst src, fun hdst => ⟨?_, ?_, ?_, ?_⟩, ?_⟩
  · apply State.ext <;> simp [writeReg_register_mem _ _ hdst, writeReg_register_env _ _ hdst]
  · exact keepsMemory_of_mem_eq ((writeReg_register_mem _ _ hdst).trans (readReg_mem src s))
  · exact readReg_writeReg_same _ _ _ hdst
  · intro q hq hne
    exact (readReg_writeReg_other _ _ _ _ hq hne).trans (readReg_value_congr _ _ _ hq (readReg_regs src s))
  · rintro rfl
    rw [writeReg_m, readReg_hl]
    exact memWrite_stored _ _ _

/-- Settles O30: the destination is written as by `MOV`, with the immediate. -/
theorem mviLoads : Obligations.MviLoads := by
  intro s dst v
  refine ⟨rfl, rfl, _, exec_mvi s dst v, fun hdst => ⟨?_, ?_, ?_, ?_⟩, ?_⟩
  · exact writeReg_register dst v s hdst
  · exact keepsMemory_of_mem_eq (writeReg_register_mem _ _ hdst)
  · exact readReg_writeReg_same _ _ _ hdst
  · exact fun q hq hne => readReg_writeReg_other _ _ _ _ hq hne
  · rintro rfl
    exact memWrite_stored _ _ _

/-- Settles O31, pair by pair. -/
theorem lxiLoads : Obligations.LxiLoads := by
  intro s p lo hi
  have hbytes : encode (.lxi p (le16 lo hi)) = [opRP p 0b0001#4, lo, hi] := by
    simp only [encode, with16, loByte_le16, hiByte_le16]
  refine ⟨hbytes, rfl, _, exec_lxi s p _, keepsMemory_of_mem_eq (writePair_mem _ _ _), ?_⟩
  cases p with
  | bc => exact setBc_le16 s lo hi
  | de => exact setDe_le16 s lo hi
  | hl => exact setHl_le16 s lo hi
  | sp => rfl

/-- Settles O32: `LDAX` is `LDA` at the address in the pair. -/
theorem accumulatorLoads : Obligations.AccumulatorLoads := by
  intro s addr p
  refine ⟨⟨rfl, rfl, _, exec_lda s addr, keepsMemory_of_mem_eq rfl, rfl⟩,
    rfl, rfl, _, (exec_ldax s p).trans (exec_lda s _), keepsMemory_of_mem_eq rfl, ?_⟩
  cases p <;> rfl

/-- Settles O33: `STAX` is `STA` at the address in the pair. -/
theorem accumulatorStores : Obligations.AccumulatorStores := by
  intro s addr p
  refine ⟨⟨rfl, rfl, _, exec_sta s addr, memWrite_stored s addr _⟩,
    rfl, rfl, _, (exec_stax s p).trans (exec_sta s _), ?_⟩
  cases p <;> exact memWrite_stored s _ _

/-- Settles O34: the second read starts from the state the first one left. -/
theorem lhldLoads : Obligations.LhldLoads := by
  intro s addr
  exact ⟨rfl, rfl, _, exec_lhld s addr, keepsMemory_of_mem_eq rfl, rfl⟩

/-- Settles O35: two stores, the second in the state the first one left. -/
theorem shldStores : Obligations.ShldStores := by
  intro s addr
  exact ⟨rfl, rfl, _, exec_shld s addr, s.memWrite_memWrite_stored addr (addr + 1#16) _ _⟩

/-- Settles O36: exchanging twice puts every register back. -/
theorem xchgSwaps : Obligations.XchgSwaps := by
  intro s
  exact ⟨rfl, rfl, _, exec_xchg s, keepsMemory_of_mem_eq rfl, exec_xchg _, rfl⟩

end Sys2Proof.DataTransfer
end

section
/-! The arithmetic instructions (41_arithmetic.md): the end of an accumulator operation, a register or memory byte
counted up or down, a pair counted up or down, and from these the statements. -/

namespace Sys2Proof.Arithmetic

open Sys2Proof.Machine
open Sys2Proof.DataTransfer (keepsMemory_of_mem_eq memWrite_stored readReg_hl writeReg_register_env
  writeReg_register_mem)

section

variable (s : State)

/-! ### The accumulator operations (R130) -/

/-- Reading an 8-bit operand changes the environment at most. -/
theorem readReg_env_only (r : Reg) : (readReg r s).2 = { s with env := (readReg r s).2.env } := by
  apply State.ext <;> simp

/-- The end of an accumulator operation, from a state that differs from `s` in the environment at most. -/
theorem accumulate_accumulatorOnly {s u : State} {env : Env} (hu : u = { s with env := env }) (o : AluOut) :
    AccumulatorOnly s (u.accumulate o) env := by
  subst hu
  exact ⟨rfl, keepsMemory_of_mem_eq rfl⟩

theorem readReg_accumulate (r : Reg) (o : AluOut) :
    AccumulatorOnly s ((readReg r s).2.accumulate o) (readReg r s).2.env :=
  accumulate_accumulatorOnly (readReg_env_only s r) o

theorem accumulate_add8_sumIn (u : State) (v : Byte) (c : Bool) :
    SumIn s (u.accumulate (add8 s.cfg s.regs.a v c)) v c :=
  ⟨add8_toNat s.cfg _ _ _, add8_cy s.cfg _ _ _, rfl, AluOut.flags_resultFlags _⟩

theorem exec_add (r : Reg) :
    exec (.add r) s = .next ((readReg r s).2.accumulate (add8 s.cfg s.regs.a (readReg r s).1 false)) := rfl

theorem exec_adi (v : Byte) : exec (.adi v) s = .next (s.accumulate (add8 s.cfg s.regs.a v false)) := rfl

theorem exec_adc (r : Reg) :
    exec (.adc r) s = .next ((readReg r s).2.accumulate (add8 s.cfg s.regs.a (readReg r s).1 s.flags.cy)) := rfl

theorem exec_aci (v : Byte) : exec (.aci v) s = .next (s.accumulate (add8 s.cfg s.regs.a v s.flags.cy)) := rfl

theorem exec_daa : exec .daa s = .next (s.accumulate (daaFn s.cfg s.regs.a s.flags.ac s.flags.cy)) := rfl

/-! ### One up or down in an 8-bit operand (R141, R142) -/

/-- The operand read, then a result written in its place, with all flags but `CY`. -/
def replaceOperand (r : Reg) (o : AluOut) (s : State) : State :=
  (writeReg r o.res (readReg r s).2).setFlags (o.flagsKeepCy s.flags)

theorem exec_inr (r : Reg) :
    exec (.inr r) s = .next (replaceOperand r (add8 s.cfg (readReg r s).1 1#8 false) s) := rfl

theorem exec_dcr (r : Reg) :
    exec (.dcr r) s = .next (replaceOperand r (sub8 s.cfg (readReg r s).1 1#8 false) s) := rfl

theorem sub8_one_toNat (cfg : Config.Params) (v : Byte) :
    (sub8 cfg v 1#8 false).res.toNat = (v.toNat + 255) % 256 := by
  have h := sub8_toNat cfg v 1#8 false
  simp only [BitVec.toNat_ofNat, Bool.toNat_false] at h
  omega

theorem flagsKeepCy_resultFlags (o : AluOut) (f : Flags) : ResultFlags o.res (o.flagsKeepCy f) :=
  resultFlags_of _ _ rfl rfl rfl

/-- In a register: the registers and the flags change, of the registers only the operand. -/
theorem replaceOperand_register {r : Reg} (o : AluOut) (h : r ≠ .m) :
    let t := replaceOperand r o s
    t = { s with regs := t.regs, flags := t.flags } ∧ KeepsMemory s t ∧ (readReg r t).1 = o.res ∧
      ∀ q, q ≠ .m → q ≠ r → (readReg q t).1 = (readReg q s).1 := by
  intro t
  have ht : t = (writeReg r o.res s).setFlags (o.flagsKeepCy s.flags) := by
    simp only [t, replaceOperand, readReg_register r s h]
  have hregs : t.regs = (writeReg r o.res s).regs := congrArg (·.regs) ht
  refine ⟨?_, ?_, ?_, fun q hq hne => ?_⟩
  · apply State.ext <;> simp [ht, writeReg_register_mem, writeReg_register_env, h]
  · exact keepsMemory_of_mem_eq ((congrArg (·.mem) ht).trans (writeReg_register_mem s o.res h))
  · exact (readReg_value_congr r _ _ h hregs).trans (readReg_writeReg_same r o.res s h)
  · exact (readReg_value_congr q _ _ hq hregs).trans (readReg_writeReg_other r q o.res s hq hne)

/-- At `HL`: a store after the read, and the flags. -/
theorem replaceOperand_m_stored (o : AluOut) :
    Stored { (readReg .m s).2 with flags := (replaceOperand .m o s).flags } (replaceOperand .m o s)
      [(s.hl, o.res)] := by
  obtain ⟨hframe, henv, hbytes⟩ := memWrite_stored (readReg .m s).2 s.hl o.res
  have ht : replaceOperand .m o s = ((readReg .m s).2.memWrite s.hl o.res).setFlags (o.flagsKeepCy s.flags) := by
    rw [replaceOperand, writeReg_m, readReg_hl]
  rw [ht]
  exact ⟨congrArg (State.setFlags (o.flagsKeepCy s.flags)) hframe, henv, hbytes⟩

/-! ### One up or down in a pair (R143, R144) -/

theorem exec_inx (p : RegPair) : exec (.inx p) s = .next (writePair p (readPair p s + 1#16) s) := rfl

theorem exec_dcx (p : RegPair) : exec (.dcx p) s = .next (writePair p (readPair p s - 1#16) s) := rfl

/-- A pair is written without any change but of the registers and `SP`. -/
theorem writePair_eq (p : RegPair) (w : Word) :
    writePair p w s = { s with regs := (writePair p w s).regs, sp := (writePair p w s).sp } := by
  cases p <;> rfl

@[simp] theorem writePair_a (p : RegPair) (w : Word) : (writePair p w s).regs.a = s.regs.a := by
  cases p <;> rfl

/-- The other pairs keep their values. -/
theorem readPair_writePair_other {p q : RegPair} (w : Word) (h : q ≠ p) :
    readPair q (writePair p w s) = readPair q s := by
  cases p <;> cases q <;> first | exact absurd rfl h | rfl

theorem writePair_others (p : RegPair) (w : Word) :
    let t := writePair p w s
    t = { s with regs := t.regs, sp := t.sp } ∧ t.regs.a = s.regs.a ∧ KeepsMemory s t ∧
      ∀ q, q ≠ p → readPair q t = readPair q s :=
  ⟨writePair_eq s p w, writePair_a s p w, keepsMemory_of_mem_eq (writePair_mem p w s),
    fun _ h => readPair_writePair_other s w h⟩

end

/-! ### The statements -/

/-- Settles O37: the operand is read, which changes the environment at most, then the sum ends in `A`. -/
theorem additions : Obligations.Additions := by
  intro s r v
  exact ⟨⟨rfl, rfl, _, exec_add s r, readReg_accumulate s r _, accumulate_add8_sumIn s _ _ _⟩,
    ⟨rfl, rfl, _, exec_adi s v, accumulate_accumulatorOnly rfl _, accumulate_add8_sumIn s _ _ _⟩,
    ⟨rfl, rfl, _, exec_adc s r, readReg_accumulate s r _, accumulate_add8_sumIn s _ _ _⟩,
    ⟨rfl, rfl, _, exec_aci s v, accumulate_accumulatorOnly rfl _, accumulate_add8_sumIn s _ _ _⟩⟩

/-- Settles O39: both instructions replace the operand, by its sum with 1 or its difference. -/
theorem incrementsAndDecrements : Obligations.IncrementsAndDecrements := by
  intro s r v writes
  have hwrites (o : AluOut) : writes (replaceOperand r o s) o.res := by
    refine ⟨flagsKeepCy_resultFlags o s.flags, rfl, replaceOperand_register s o, ?_⟩
    rintro rfl
    exact replaceOperand_m_stored s o
  exact ⟨⟨rfl, rfl, _, _, exec_inr s r, add8_toNat s.cfg v 1#8 false, rfl, hwrites _⟩,
    ⟨rfl, rfl, _, _, exec_dcr s r, sub8_one_toNat s.cfg v, rfl, hwrites _⟩⟩

/-- Settles O40: both instructions write the pair alone. -/
theorem pairSteps : Obligations.PairSteps := by
  intro s p others
  refine ⟨⟨rfl, rfl, _, exec_inx s p, writePair_others s p _, ?_⟩,
    ⟨rfl, rfl, _, exec_dcx s p, writePair_others s p _, ?_⟩⟩
  · rw [readPair_writePair]
    exact BitVec.toNat_add _ 1#16
  · rw [readPair_writePair]
    bv_omega

/-- Settles O42: what `DAA_FN` gives ends in `A` and the flags, as the result of any accumulator operation. -/
theorem daaAdjusts : Obligations.DaaAdjusts := by
  intro s
  exact ⟨rfl, rfl, _, exec_daa s, accumulate_accumulatorOnly rfl _, rfl, rfl, rfl, AluOut.flags_resultFlags _⟩

end Sys2Proof.Arithmetic
end

section
/-! The bitwise operations, the rotates and the operations on `CY` (42_logical.md): the end of each kind of operation
and the result of each in bits or numbers, and from these the statements. -/

namespace Sys2Proof.Logical

open Sys2Proof.Machine
open Sys2Proof.DataTransfer (keepsMemory_of_mem_eq)
open Sys2Proof.Arithmetic (accumulate_accumulatorOnly readReg_env_only)

section

variable (s : State)

/-! ### The bitwise operations (R160 to R167) -/

/-- A bitwise operation ends as any accumulator operation does, with `CY` 0. -/
theorem logical_eq_accumulate (res : Byte) (ac : Bool) :
    s.logical res ac = s.accumulate { res := res, cy := false, ac := ac } := rfl

/-- The end of a bitwise operation, from a state that differs from `s` in the environment at most. -/
theorem logical_accumulatorOnly_bitwiseIn {s u : State} {env : Env} (hu : u = { s with env := env }) {res : Byte}
    {op : Nat → Bool} (ac : Bool) (hres : ∀ i, res.getLsbD i = op i) :
    AccumulatorOnly s (u.logical res ac) env ∧ BitwiseIn (u.logical res ac) op ac := by
  rw [logical_eq_accumulate]
  exact ⟨accumulate_accumulatorOnly hu _, fun i _ => hres i, rfl, rfl, AluOut.flags_resultFlags _⟩

theorem exec_ana (r : Reg) :
    exec (.ana r) s = .next ((readReg r s).2.logical (s.regs.a &&& (readReg r s).1)
      (acAna s.cfg s.regs.a (readReg r s).1)) := rfl

theorem exec_ani (v : Byte) : exec (.ani v) s = .next (s.logical (s.regs.a &&& v) false) := rfl

theorem exec_xra (r : Reg) :
    exec (.xra r) s = .next ((readReg r s).2.logical (s.regs.a ^^^ (readReg r s).1) false) := rfl

theorem exec_xri (v : Byte) : exec (.xri v) s = .next (s.logical (s.regs.a ^^^ v) false) := rfl

theorem exec_ora (r : Reg) :
    exec (.ora r) s = .next ((readReg r s).2.logical (s.regs.a ||| (readReg r s).1) false) := rfl

theorem exec_ori (v : Byte) : exec (.ori v) s = .next (s.logical (s.regs.a ||| v) false) := rfl

/-! ### The rotates (R170 to R173) -/

/-- Bits side by side, as a number. -/
theorem toNat_append_eq_add {m n : Nat} (x : BitVec m) (y : BitVec n) :
    (x ++ y).toNat = x.toNat * 2 ^ n + y.toNat := by
  rw [BitVec.toNat_append, ← Nat.shiftLeft_add_eq_or_of_lt y.isLt, Nat.shiftLeft_eq]

/-- One bit moved in at the low end, the top bit lost. -/
theorem toNat_shiftedIn_low (a : Byte) (x : BitVec 1) :
    (a.extractLsb' 0 7 ++ x : Byte).toNat = 2 * a.toNat % 256 + x.toNat := by
  rw [toNat_append_eq_add, BitVec.extractLsb'_toNat, Nat.shiftRight_eq_div_pow]
  omega

/-- One bit moved in at the high end, the low bit lost. -/
theorem toNat_shiftedIn_high (a : Byte) (x : BitVec 1) :
    (x ++ a.extractLsb' 1 7 : Byte).toNat = a.toNat / 2 + 128 * x.toNat := by
  rw [toNat_append_eq_add, BitVec.extractLsb'_toNat, Nat.shiftRight_eq_div_pow]
  omega

theorem toNat_topBit (a : Byte) : (a.extractLsb' 7 1).toNat = a.toNat / 128 := by
  rw [BitVec.extractLsb'_toNat, Nat.shiftRight_eq_div_pow]
  omega

theorem toNat_lowBit (a : Byte) : (a.extractLsb' 0 1).toNat = a.toNat % 2 := BitVec.extractLsb'_toNat 0 1 a

theorem topBit_iff (a : Byte) : a.getLsbD 7 = true ↔ 128 ≤ a.toNat := by
  rw [BitVec.getLsbD_last a]
  exact decide_eq_true_iff

theorem lowBit_iff (a : Byte) : a.getLsbD 0 = true ↔ a.toNat % 2 = 1 := by
  rw [BitVec.getLsbD, Nat.testBit_zero, decide_eq_true_iff]

/-- The end of a rotate: `A` and `CY` change, nothing else. -/
theorem setA_setCy_only (v : Byte) (c : Bool) :
    let t := (s.setA v).setCy c
    AccumulatorOnly s t s.env ∧ t.flags = { s.flags with cy := t.flags.cy } :=
  ⟨⟨rfl, keepsMemory_of_mem_eq rfl⟩, rfl⟩

theorem exec_rlc :
    exec .rlc s =
      .next ((s.setA (s.regs.a.extractLsb' 0 7 ++ s.regs.a.extractLsb' 7 1)).setCy (s.regs.a.getLsbD 7)) := rfl

theorem exec_rrc :
    exec .rrc s =
      .next ((s.setA (s.regs.a.extractLsb' 0 1 ++ s.regs.a.extractLsb' 1 7)).setCy (s.regs.a.getLsbD 0)) := rfl

theorem exec_ral :
    exec .ral s =
      .next ((s.setA (s.regs.a.extractLsb' 0 7 ++ BitVec.ofBool s.flags.cy)).setCy (s.regs.a.getLsbD 7)) := rfl

theorem exec_rar :
    exec .rar s =
      .next ((s.setA (BitVec.ofBool s.flags.cy ++ s.regs.a.extractLsb' 1 7)).setCy (s.regs.a.getLsbD 0)) := rfl

/-! ### The complements and `STC` (R174 to R176) -/

theorem exec_cma : exec .cma s = .next (s.setA (~~~ s.regs.a)) := rfl

theorem exec_cmc : exec .cmc s = .next (s.setCy (!s.flags.cy)) := rfl

theorem exec_stc : exec .stc s = .next (s.setCy true) := rfl

end

/-! ### The statements -/

/-- Settles O45: the operand is read, which changes the environment at most, then the result ends in `A` with each bit
from the two bits in its place. -/
theorem bitwiseOperations : Obligations.BitwiseOperations := by
  intro s r v a m
  have hread := readReg_env_only s r
  exact ⟨⟨rfl, rfl, _, exec_ana s r, logical_accumulatorOnly_bitwiseIn hread _ fun _ => BitVec.getLsbD_and⟩,
    ⟨rfl, rfl, _, exec_ani s v, logical_accumulatorOnly_bitwiseIn rfl _ fun _ => BitVec.getLsbD_and⟩,
    ⟨rfl, rfl, _, exec_xra s r, logical_accumulatorOnly_bitwiseIn hread _ fun _ => BitVec.getLsbD_xor⟩,
    ⟨rfl, rfl, _, exec_xri s v, logical_accumulatorOnly_bitwiseIn rfl _ fun _ => BitVec.getLsbD_xor⟩,
    ⟨rfl, rfl, _, exec_ora s r, logical_accumulatorOnly_bitwiseIn hread _ fun _ => BitVec.getLsbD_or⟩,
    ⟨rfl, rfl, _, exec_ori s v, logical_accumulatorOnly_bitwiseIn rfl _ fun _ => BitVec.getLsbD_or⟩⟩

/-- Settles O47: each rotate moves one bit in at one end of `A`, the bit that leaves at the other end or `CY`, and the
bit that leaves becomes `CY`. -/
theorem rotates : Obligations.Rotates := by
  intro s a only
  refine ⟨⟨rfl, rfl, _, exec_rlc s, setA_setCy_only s _ _, ?_, topBit_iff s.regs.a⟩,
    ⟨rfl, rfl, _, exec_rrc s, setA_setCy_only s _ _, ?_, lowBit_iff s.regs.a⟩,
    ⟨rfl, rfl, _, exec_ral s, setA_setCy_only s _ _, ?_, topBit_iff s.regs.a⟩,
    ⟨rfl, rfl, _, exec_rar s, setA_setCy_only s _ _, ?_, lowBit_iff s.regs.a⟩⟩
  · exact (toNat_shiftedIn_low s.regs.a _).trans (by rw [toNat_topBit])
  · exact (toNat_shiftedIn_high s.regs.a _).trans (by rw [toNat_lowBit])
  · exact (toNat_shiftedIn_low s.regs.a _).trans (by rw [BitVec.toNat_ofBool])
  · exact (toNat_shiftedIn_high s.regs.a _).trans (by rw [BitVec.toNat_ofBool])

/-- Settles O48: `CMA` writes `A` alone, `CMC` and `STC` write `CY` alone. -/
theorem complementsAndCarry : Obligations.ComplementsAndCarry := by
  intro s
  exact ⟨⟨rfl, rfl, _, exec_cma s, keepsMemory_of_mem_eq rfl, rfl, BitVec.toNat_not⟩,
    ⟨rfl, rfl, _, exec_cmc s, keepsMemory_of_mem_eq rfl, rfl⟩,
    ⟨rfl, rfl, _, exec_stc s, keepsMemory_of_mem_eq rfl, rfl⟩⟩

end Sys2Proof.Logical
end

section
/-! The control-transfer instructions (43_control_transfer.md): the conditional forms as one instruction with a
condition, what a condition decides, each meaning as one equation, and from these the statements. -/

namespace Sys2Proof.ControlTransfer

open Sys2Proof.Machine
open Sys2Proof.DataTransfer (keepsMemory_of_mem_eq)

section

variable (s : State)

/-! ### The conditional forms: encoding, clocks and meaning (10_state.md R30) -/

theorem encode_jcc (cond : Cond) (w : Word) : encode (.jcc cond w) = with16 (opCC cond 0b010#3) w := by
  cases cond <;> rfl

theorem encode_ccc (cond : Cond) (w : Word) : encode (.ccc cond w) = with16 (opCC cond 0b100#3) w := by
  cases cond <;> rfl

theorem encode_rcc (cond : Cond) : encode (.rcc cond) = [opCC cond 0b000#3] := by
  cases cond <;> rfl

theorem clocks_jcc (cond : Cond) (w : Word) : clocks (.jcc cond w) s = clocksJcc cond s := by
  cases cond <;> rfl

theorem clocks_ccc (cond : Cond) (w : Word) : clocks (.ccc cond w) s = clocksCcc cond s := by
  cases cond <;> rfl

theorem clocks_rcc (cond : Cond) : clocks (.rcc cond) s = clocksRcc cond s := by
  cases cond <;> rfl

theorem exec_jcc (cond : Cond) (w : Word) :
    exec (.jcc cond w) s = .next (s.whenHolds cond (State.jumpTo w)) := by
  cases cond <;> rfl

theorem exec_ccc (cond : Cond) (w : Word) :
    exec (.ccc cond w) s = .next (s.whenHolds cond (State.callTo w)) := by
  cases cond <;> rfl

theorem exec_rcc (cond : Cond) : exec (.rcc cond) s = .next (s.whenHolds cond State.returnFrom) := by
  cases cond <;> rfl

/-! ### What a condition decides (R191, R193, R195) -/

/-- Taken, an instruction has its effect and so whatever holds of that; not taken, it changes nothing. -/
theorem whenHolds_effect_or_eq (cond : Cond) {effect : State → State} {P : State → Prop} (h : P (effect s)) :
    if s.flags.holds cond then P (s.whenHolds cond effect) else s.whenHolds cond effect = s := by
  unfold State.whenHolds
  split
  · exact h
  · rfl

/-- A jump that a condition decides changes `PC` at most. -/
theorem whenHolds_jumpTo (cond : Cond) (w : Word) :
    s.whenHolds cond (State.jumpTo w) = { s with pc := if s.flags.holds cond then w else s.pc } := by
  unfold State.whenHolds
  split
  · rfl
  · rfl

/-! ### The meanings, one equation each -/

theorem exec_jmp (w : Word) : exec (.jmp w) s = .next { s with pc := w } := rfl

theorem exec_pchl : exec .pchl s = .next { s with pc := s.hl } := rfl

theorem exec_call (w : Word) : exec (.call w) s = .next (s.callTo w) := rfl

/-- `RST n` is a call to its restart address (R196). -/
theorem exec_rst (n : BitVec 3) : exec (.rst n) s = .next (s.callTo (rstTarget n)) := rfl

theorem exec_ret : exec .ret s = .next s.returnFrom := rfl

theorem toNat_rstTarget (n : BitVec 3) : (rstTarget n).toNat = 8 * n.toNat := by
  revert n
  decide

/-- A return: `PC`, `SP` and what its two reads change (R194). -/
theorem returnFrom_eq :
    let lo := s.memRead s.sp
    let hi := lo.2.memRead (s.sp + 1#16)
    s.returnFrom = { s with pc := le16 lo.1 hi.1, sp := s.sp + 2#16, env := hi.2.env } := by
  intro lo hi
  apply State.ext <;> simp [State.returnFrom, State.popWord, lo, hi]

end

/-! ### The statements -/

/-- Settles O49, with Table 3 condition by condition. -/
theorem jumps : Obligations.Jumps := by
  intro s w cond
  refine ⟨?_, ⟨rfl, rfl, _, exec_jmp s w, rfl, keepsMemory_of_mem_eq rfl⟩,
    ⟨encode_jcc cond w, clocks_jcc s cond w, ?_⟩,
    ⟨rfl, rfl, _, exec_pchl s, keepsMemory_of_mem_eq rfl, rfl, toNat_le16 s.regs.l s.regs.h⟩⟩
  · cases cond with
    | z | c | pe | m => exact Iff.rfl
    | nz | nc | po | p => exact iff_of_eq (Bool.not_eq_true' _)
  · rw [exec_jcc, whenHolds_jumpTo]
    exact ⟨_, rfl, keepsMemory_of_mem_eq rfl, rfl⟩

/-- Settles O50: all three kinds push `PC` and jump, a `C…` where its condition holds. -/
theorem calls : Obligations.Calls := by
  intro s w cond n calls
  have hcall (target : Word) : calls (s.callTo target) target := s.pushPc_setPc_stored target
  exact ⟨⟨rfl, rfl, _, exec_call s w, hcall w⟩,
    ⟨encode_ccc cond w, clocks_ccc s cond w, _, exec_ccc s cond w,
      whenHolds_effect_or_eq (P := fun t => calls t w) s cond (hcall w)⟩,
    ⟨rfl, rfl, _, exec_rst s n, hcall (rstTarget n), toNat_rstTarget n⟩⟩

/-- Settles O51: both kinds pop `PC`, an `R…` where its condition holds. -/
theorem returns : Obligations.Returns := by
  intro s cond lo hi returns
  have hreturn : returns s.returnFrom :=
    ⟨returnFrom_eq s, keepsMemory_of_mem_eq s.returnFrom_mem, toNat_le16 lo.1 hi.1⟩
  exact ⟨⟨rfl, rfl, _, exec_ret s, hreturn⟩,
    encode_rcc cond, clocks_rcc s cond, _, exec_rcc s cond, whenHolds_effect_or_eq s cond hreturn⟩

end Sys2Proof.ControlTransfer
end

section
/-! The stack instructions (44_stack.md): the flag byte that `PUSH PSW` stores, what a pop changes, each meaning as one
equation, and from these the statements. -/

namespace Sys2Proof.Stack

open Sys2Proof.Machine
open Sys2Proof.DataTransfer (keepsMemory_of_mem_eq setBc_le16 setDe_le16 setHl_le16)

section

variable (s : State)

/-! ### The flag byte of `PUSH PSW` (10_state.md R29) -/

/-- The X bits are some three bits, those of `F_X_BITS` where it fixes them, and then no free value is drawn. -/
theorem flagByteOut_xBits :
    ∃ x5 x3 x1 : Bool, s.flagByteOut.1 = flagByte s.flags x5 x3 x1 ∧
      ∀ y5 y3 y1, s.cfg.fxBits = .fixed y5 y3 y1 →
        x5 = y5 ∧ x3 = y3 ∧ x1 = y1 ∧ s.flagByteOut.2.env.draws = s.env.draws := by
  unfold State.flagByteOut
  cases s.cfg.fxBits with
  | fixed x5 x3 x1 =>
    refine ⟨x5, x3, x1, rfl, ?_⟩
    rintro _ _ _ ⟨⟩
    exact ⟨rfl, rfl, rfl, rfl⟩
  | drawn => exact ⟨_, _, _, rfl, nofun⟩

/-- Making the flag byte changes the count of free values at most. -/
theorem flagByteOut_draws_only :
    s.flagByteOut.2 = { s with env := { s.env with draws := s.flagByteOut.2.env.draws } } := by
  unfold State.flagByteOut
  cases s.cfg.fxBits with
  | fixed x5 x3 x1 => rfl
  | drawn => rfl

/-- A push draws no free value. -/
@[simp] theorem pushBytes_draws (hi lo : Byte) : (s.pushBytes hi lo).env.draws = s.env.draws := by
  obtain ⟨-, henv, -⟩ := s.pushBytes_stored hi lo
  rw [henv]

/-- The push of `A` and the flag byte, seen from the state before the flag byte was made. -/
theorem pushPsw_stored :
    let f := s.flagByteOut
    Stored { s with sp := s.sp - 2#16, env := { s.env with draws := f.2.env.draws } } (f.2.pushBytes s.regs.a f.1)
      [(s.sp - 1#16, s.regs.a), (s.sp - 2#16, f.1)] := by
  intro f
  have hstored := f.2.pushBytes_stored s.regs.a f.1
  have hbefore : ({ f.2 with sp := f.2.sp - 2#16 } : State) =
      { s with sp := s.sp - 2#16, env := { s.env with draws := f.2.env.draws } } :=
    congrArg (fun u => { u with sp := u.sp - 2#16 }) (flagByteOut_draws_only s)
  rwa [hbefore, State.flagByteOut_sp] at hstored

/-! ### What a pop changes (R211) -/

/-- The word popped, and the state after: `SP` and what the two reads change. -/
theorem popWord_eq :
    let lo := s.memRead s.sp
    let hi := lo.2.memRead (s.sp + 1#16)
    s.popWord = (le16 lo.1 hi.1, { s with sp := s.sp + 2#16, env := hi.2.env }) := by
  intro lo hi
  refine Prod.ext rfl ?_
  apply State.ext <;> simp [State.popWord, lo, hi]

/-! ### The meanings, one equation each -/

theorem exec_push_bc : exec (.push .bc) s = .next (s.pushBytes s.regs.b s.regs.c) := rfl

theorem exec_push_de : exec (.push .de) s = .next (s.pushBytes s.regs.d s.regs.e) := rfl

theorem exec_push_hl : exec (.push .hl) s = .next (s.pushBytes s.regs.h s.regs.l) := rfl

theorem exec_push_psw :
    exec (.push .psw) s = .next (s.flagByteOut.2.pushBytes s.regs.a s.flagByteOut.1) := rfl

end

/-- The registers once a pair or `PSW` has taken the bytes that a pop read. -/
def poppedRegs (p : StackPair) (lo hi : Byte) (g : Regs) : Regs :=
  match p with
  | .bc => { g with b := hi, c := lo }
  | .de => { g with d := hi, e := lo }
  | .hl => { g with h := hi, l := lo }
  | .psw => { g with a := hi }

/-- The flags once a pair or `PSW` has taken the low byte that a pop read: a pair takes none. -/
def poppedFlags (p : StackPair) (lo : Byte) (f : Flags) : Flags :=
  match p with
  | .bc | .de | .hl => f
  | .psw => flagsOfByte lo

/-- `POP`: the pair or `PSW`, `SP` and what the two reads change. -/
theorem exec_pop (s : State) (p : StackPair) :
    let lo := s.memRead s.sp
    let hi := lo.2.memRead (s.sp + 1#16)
    exec (.pop p) s = .next { s with
      sp := s.sp + 2#16
      env := hi.2.env
      regs := poppedRegs p lo.1 hi.1 s.regs
      flags := poppedFlags p lo.1 s.flags } := by
  intro lo hi
  have hexec : exec (.pop p) s = execPop p s := rfl
  rw [hexec]
  unfold execPop
  rw [popWord_eq]
  cases p with
  | bc => exact congrArg Host.Outcome.next (setBc_le16 _ lo.1 hi.1)
  | de => exact congrArg Host.Outcome.next (setDe_le16 _ lo.1 hi.1)
  | hl => exact congrArg Host.Outcome.next (setHl_le16 _ lo.1 hi.1)
  | psw =>
    simp only [hiByte_le16, loByte_le16]
    rfl

/-! ### The statements -/

/-- Settles O52: every form is one push of two bytes, for `PSW` after the flag byte has been made. -/
theorem pushes : Obligations.Pushes := by
  intro s p
  refine ⟨rfl, rfl, ?_⟩
  cases p with
  | bc => exact ⟨_, exec_push_bc s, s.pushBytes_stored _ _⟩
  | de => exact ⟨_, exec_push_de s, s.pushBytes_stored _ _⟩
  | hl => exact ⟨_, exec_push_hl s, s.pushBytes_stored _ _⟩
  | psw =>
    obtain ⟨x5, x3, x1, hbyte, hfixed⟩ := flagByteOut_xBits s
    refine ⟨_, exec_push_psw s, s.flagByteOut.1, x5, x3, x1, ?_, ?_, ?_⟩
    · rw [hbyte, flagByte_toNat]
    · rwa [pushBytes_draws]
    · rw [pushBytes_draws]
      exact pushPsw_stored s

/-- Settles O53: the equation of `POP`, read pair by pair. -/
theorem pops : Obligations.Pops := by
  intro s p lo hi
  refine ⟨rfl, rfl, _, exec_pop s p, keepsMemory_of_mem_eq rfl, ?_⟩
  cases p <;> rfl

end Sys2Proof.Stack
end

section
/-! `HLT` and `NOP` (46_interrupt_and_other.md): what a sampling without RESET keeps, the step of a halted machine, and
from these the statement. -/

namespace Sys2Proof.HaltAndNop

open Sys2Proof.Machine
open Sys2Proof.DataTransfer (keepsMemory_of_mem_eq)

section

variable (s : State)

/-! ### The sampling and the halted machine (60_exceptions.md R270) -/

/-- Without RESET the sampling does not end the halted state. -/
theorem sample_halted (h : s.nextSlot.reset = false) : s.sample.halted = s.halted := by
  simp [State.sample, h]

/-- Without RESET the sampling takes its slot off the script and changes nothing else of the environment: no event, no
free value. -/
theorem sample_env (h : s.nextSlot.reset = false) : s.sample.env = { s.env with slots := s.env.slots.tail } := by
  simp [State.sample, h]

theorem sample_history (h : s.nextSlot.reset = false) : s.sample.env.history = s.env.history := by
  rw [sample_env s h]

theorem sample_draws (h : s.nextSlot.reset = false) : s.sample.env.draws = s.env.draws := by
  rw [sample_env s h]

/-- A halted machine that has accepted no interrupt only samples. -/
theorem step_of_halted (haccepted : s.accepted = none) (hhalted : s.halted = true) : step s = .next s.sample := by
  simp [step, haccepted, hhalted]

/-! ### The meanings, one equation each -/

theorem exec_hlt : exec .hlt s = .next { s with halted := true } := rfl

theorem exec_nop : exec .nop s = .next s := rfl

end

/-! ### The statement -/

/-- Settles O58: the step after `HLT` is a sampling, whose slot is the one that `s` shows next. -/
theorem haltAndNop : Obligations.HaltAndNop := by
  intro s
  refine ⟨⟨rfl, rfl, _, exec_hlt s, rfl, keepsMemory_of_mem_eq rfl, fun haccepted => ?_⟩, rfl, rfl, s, exec_nop s, rfl⟩
  refine ⟨_, step_of_halted _ haccepted rfl, State.sample_regs _, State.sample_flags _, State.sample_sp _,
    keepsMemory_of_mem_eq (State.sample_mem _), fun hreset => ?_⟩
  exact ⟨State.sample_pc _ hreset, sample_halted _ hreset, sample_history _ hreset, sample_draws _ hreset⟩

end Sys2Proof.HaltAndNop
end

section
/-! Decoding and encoding are inverse (30_encoding.md R80 to R93): the decoder on an encoding, format by format, and the
bytes of what three bytes decode to. -/

namespace Sys2Proof.RoundTrip

open Sys2Proof.Encoding

variable (v : Config.Variant)

/-! ### The opcodes of `MOV` and `HLT` (R91, R92) -/

@[simp] theorem regOfCode_code (r : Reg) : Reg.ofCode r.code = r := by cases r <;> rfl

/-- `01DDDSSS` is the opcode of `HLT` for `M,M` only. -/
theorem opDS_eq_hlt_iff (dst src : Reg) : opDS dst src = 0x76#8 ↔ dst = .m ∧ src = .m := by
  cases dst <;> cases src <;> decide

theorem decodeOp_opDS {dst src : Reg} (h : ¬(dst = .m ∧ src = .m)) (b2 b3 : Byte) :
    decodeOp v (opDS dst src) b2 b3 = .mov dst src := by
  have hquarter : fieldQuarter (opDS dst src) = 1#2 := by cases dst <;> cases src <;> rfl
  have hmid : fieldMid (opDS dst src) = dst.code := by cases dst <;> cases src <;> rfl
  have hlow : fieldLow (opDS dst src) = src.code := by cases dst <;> cases src <;> rfl
  simp [decodeOp, hquarter, hmid, hlow, opDS_eq_hlt_iff, h]

theorem decodeOp_rstOpcode (n : BitVec 3) (b2 b3 : Byte) : decodeOp v (0b11#2 ++ n ++ 0b111#3) b2 b3 = .rst n := by
  have hquarter : ∀ n : BitVec 3, fieldQuarter (0b11#2 ++ n ++ 0b111#3) = 3#2 := by decide
  have hmid : ∀ n : BitVec 3, fieldMid (0b11#2 ++ n ++ 0b111#3) = n := by decide
  have hlow : ∀ n : BitVec 3, fieldLow (0b11#2 ++ n ++ 0b111#3) = 7#3 := by decide
  simp only [decodeOp, decodeQuarter3, hquarter, hmid, hlow]
  rfl

/-- What decodes to an instruction of one byte has that byte as its opcode. -/
theorem opcode_of_decodeOp_eq {b1 b2 b3 op : Byte} {i : Instr} (h : decodeOp v b1 b2 b3 = i)
    (hop : (encode i).head? = some op) : b1 = op := by
  have hhead := head_encode_decodeOp v b1 b2 b3
  rw [h, hop] at hhead
  exact (Option.some.inj hhead).symm

theorem decodeOp_eq_hlt_iff (b1 b2 b3 : Byte) : decodeOp v b1 b2 b3 = .hlt ↔ b1 = 0x76#8 :=
  ⟨fun h => opcode_of_decodeOp_eq v h rfl, fun h => h ▸ rfl⟩

theorem decodeOp_ne_mov_m_m (b1 b2 b3 : Byte) : decodeOp v b1 b2 b3 ≠ .mov .m .m := by
  intro h
  have hop : b1 = 0x76#8 := opcode_of_decodeOp_eq v h rfl
  rw [(decodeOp_eq_hlt_iff v b1 b2 b3).mpr hop] at h
  cases h

theorem decodeOp_eq_mov_iff {dst src : Reg} (h : ¬(dst = .m ∧ src = .m)) (b1 b2 b3 : Byte) :
    decodeOp v b1 b2 b3 = .mov dst src ↔ b1 = opDS dst src :=
  ⟨fun hdec => opcode_of_decodeOp_eq v hdec rfl, fun hop => hop ▸ decodeOp_opDS v h b2 b3⟩

/-- Settles O4: an instruction that is decoded has the opcode it is decoded from. -/
theorem haltIsNoMove : Obligations.HaltIsNoMove := by
  intro v b1 b2 b3
  exact ⟨decodeOp_eq_hlt_iff v b1 b2 b3, decodeOp_ne_mov_m_m v b1 b2 b3,
    fun _ _ h => decodeOp_eq_mov_iff v h b1 b2 b3⟩

/-! ### What bytes decode to is well-formed (R92, R93) -/

/-- The ill-formed terms (log 27). -/
theorem ill_formed_cases {i : Instr} (h : i.wellFormed v = false) :
    i = .mov .m .m ∨ v = .i8080 ∧ (i = .sim ∨ i = .rim) ∨ v = .i8085 ∧ (i = .unused20 ∨ i = .unused30) := by
  cases v <;> unfold Instr.wellFormed at h <;> split at h <;> simp_all

/-- The opcode of an ill-formed term is that of another instruction of the variant. -/
theorem wellFormed_decodeOp (b1 b2 b3 : Byte) : (decodeOp v b1 b2 b3).wellFormed v = true := by
  rw [← Bool.not_eq_false]
  intro hill
  rcases ill_formed_cases v hill with h | ⟨rfl, h | h⟩ | ⟨rfl, h | h⟩
  · exact decodeOp_ne_mov_m_m v b1 b2 b3 h
  · obtain rfl : b1 = 0x30#8 := opcode_of_decodeOp_eq _ h rfl
    cases h
  · obtain rfl : b1 = 0x20#8 := opcode_of_decodeOp_eq _ h rfl
    cases h
  · obtain rfl : b1 = 0x20#8 := opcode_of_decodeOp_eq _ h rfl
    cases h
  · obtain rfl : b1 = 0x30#8 := opcode_of_decodeOp_eq _ h rfl
    cases h

/-! ### The decoder on an encoding, by the format of its operand (R83, R86) -/

variable {v} {op : Byte} (rest : List Byte)

theorem decode_one_byte {i : Instr} (hlen : opLength op = 1) (hop : decodeOp v op 0#8 0#8 = i) :
    decode v ([op] ++ rest) = .ok (i, rest) := by
  simp [decode, hlen, hop]

theorem decode_two_bytes {i : Instr} {b2 : Byte} (hlen : opLength op = 2) (hop : decodeOp v op b2 0#8 = i) :
    decode v ([op, b2] ++ rest) = .ok (i, rest) := by
  simp [decode, hlen, hop]

theorem decode_with16 {c : Word → Instr} (hlen : opLength op = 3)
    (hop : ∀ lo hi, decodeOp v op lo hi = c (le16 lo hi)) (w : Word) :
    decode v (with16 op w ++ rest) = .ok (c w, rest) := by
  simp [decode, with16, hlen, hop]

/-- Settles O1, format by format: one byte, with the operand in its bits; a byte and an immediate; a byte and a 16-bit
operand. -/
theorem decodeOfEncode : Obligations.DecodeOfEncode := by
  intro v i rest hwf
  cases i with
  | mov dst src =>
    have hmm : ¬(dst = .m ∧ src = .m) := by
      rintro ⟨rfl, rfl⟩
      cases hwf
    refine decode_one_byte rest ?_ (decodeOp_opDS v hmm _ _)
    cases dst <;> cases src <;> rfl
  | mvi dst x => cases dst <;> exact decode_two_bytes rest rfl rfl
  | lxi p w => cases p <;> exact decode_with16 rest rfl (fun _ _ => rfl) w
  | ldax p | stax p => cases p <;> exact decode_one_byte rest rfl rfl
  | add r | adc r | sub r | sbb r | ana r | xra r | ora r | cmp r | inr r | dcr r =>
    cases r <;> exact decode_one_byte rest rfl rfl
  | inx p | dcx p | dad p => cases p <;> exact decode_one_byte rest rfl rfl
  | push p | pop p => cases p <;> exact decode_one_byte rest rfl rfl
  | rst n =>
    have hlen : ∀ n : BitVec 3, opLength (0b11#2 ++ n ++ 0b111#3) = 1 := by decide
    exact decode_one_byte rest (hlen n) (decodeOp_rstOpcode v n _ _)
  | adi x | aci x | sui x | sbi x | ani x | xri x | ori x | cpi x | inPort x | outPort x =>
    exact decode_two_bytes rest rfl rfl
  | lda w | sta w | lhld w | shld w | jmp w | jnz w | jz w | jnc w | jc w | jpo w | jpe w | jp w | jm w
  | call w | cnz w | cz w | cnc w | cc w | cpo w | cpe w | cp w | cm w
  | unusedCB w | unusedDD w | unusedED w | unusedFD w => exact decode_with16 rest rfl (fun _ _ => rfl) w
  | sim | rim =>
    obtain rfl : v = .i8085 := of_decide_eq_true hwf
    exact decode_one_byte rest rfl rfl
  | unused20 | unused30 =>
    obtain rfl : v = .i8080 := of_decide_eq_true hwf
    exact decode_one_byte rest rfl rfl
  | _ => exact decode_one_byte rest rfl rfl

/-! ### The bytes of what is decoded -/

/-- The operand bytes of what is decoded are bytes that were read. -/
theorem tail_encode_decodeOp (v : Config.Variant) (b1 b2 b3 : Byte) :
    (encode (decodeOp v b1 b2 b3)).tail <+: [b2, b3] := by
  unfold decodeOp
  split
  · unfold decodeQuarter0
    repeat' split
    all_goals simp [encode, with16]
  · split <;> simp [encode]
  · unfold decodeAccReg
    split <;> simp [encode]
  · unfold decodeQuarter3 decodeAccImm
    repeat' split
    all_goals simp [encode, with16]

/-- The bytes of what is decoded are the first of those read, as many as the opcode says (R81). -/
theorem encode_decodeOp_eq_take (v : Config.Variant) (b1 b2 b3 : Byte) :
    encode (decodeOp v b1 b2 b3) = [b1, b2, b3].take (opLength b1) := by
  obtain ⟨operands, henc, hlen⟩ := encode_decodeOp v b1 b2 b3
  have htail : operands <+: [b2, b3] := by simpa [henc] using tail_encode_decodeOp v b1 b2 b3
  rw [henc, hlen, List.take_succ_cons, ← List.prefix_iff_eq_take.mp htail]

/-- Settles O2, by the length that the opcode gives: as many bytes are decoded, the others are left. -/
theorem encodeOfDecode : Obligations.EncodeOfDecode := by
  intro v b1 b2 b3
  rcases opLength_cases b1 with hlen | hlen | hlen
  · refine ⟨decodeOp v b1 0#8 0#8, [b2, b3], by simp only [decode, hlen], wellFormed_decodeOp v _ _ _, ?_⟩
    rw [encode_decodeOp_eq_take, hlen]
    rfl
  · refine ⟨decodeOp v b1 b2 0#8, [b3], by simp only [decode, hlen], wellFormed_decodeOp v _ _ _, ?_⟩
    rw [encode_decodeOp_eq_take, hlen]
    rfl
  · refine ⟨decodeOp v b1 b2 b3, [], by simp only [decode, hlen], wellFormed_decodeOp v _ _ _, ?_⟩
    rw [encode_decodeOp_eq_take, hlen]
    rfl

/-- Settles O3: the words come out of the decoder alike on both variants. -/
theorem specWordsDecode : Obligations.SpecWordsDecode := by
  intro v
  exact ⟨rfl, rfl, rfl, rfl, rfl, rfl, rfl, rfl, rfl, rfl, rfl, rfl, rfl, rfl⟩

end Sys2Proof.RoundTrip
end

section
/-! What an instruction can do to the state (10_state.md R24, R25, R28, R31 to R33, 20_memory.md R54): every next state
is reached by elementary effects, each of which only some instructions have. Whatever such an effect keeps, the
instruction keeps. -/

namespace Sys2Proof.Writers

open Sys2Proof.Machine

/-- One elementary effect that the instruction `i` may have. -/
inductive Effect (i : Instr) : State → State → Prop
  | regs (s : State) (g : Regs) : Effect i s (s.setRegs g)
  | flags (s : State) (f : Flags) (hszap : i.writesSzap = false → f = { s.flags with cy := f.cy })
      (hcy : i.writesCy = false → f.cy = s.flags.cy) : Effect i s (s.setFlags f)
  | stackPointer (s : State) (w : Word) (h : i.writesSp = true) : Effect i s (s.setSp w)
  | programCounter (s : State) (w : Word) (h : i.writesPc = true) : Effect i s (s.setPc w)
  | read (s : State) (a : Word) : Effect i s (s.memRead a).2
  | write (s : State) (a : Word) (v : Byte) (h : i.writesMemory = true) : Effect i s (s.memWrite a v)
  | draw (s : State) : Effect i s s.draw
  | input (s : State) (p : Byte) (h : i = .inPort p) : Effect i s (s.ioRead p).2
  | output (s : State) (p v : Byte) : Effect i s (s.ioWrite p v)
  | enable (s : State) (on late : Bool) (n : Nat) (h : i = .ei ∨ i = .di) (hdelay : n ≤ s.cfg.eiDelay.count)
      (hon : on = true ∨ n = 0) : Effect i s (s.setEnable on late n)
  | halt (s : State) (h : i = .hlt) : Effect i s (s.setHalted true)
  | masks (s : State) (m : Masks) (h : i = .sim) : Effect i s (s.writeMasks m)

/-- Elementary effects of `i`, one after the other. -/
def Effects (i : Instr) : State → State → Prop := Relation.ReflTransGen (Effect i)

variable {i : Instr} {s t u : State}

theorem Effects.refl (i : Instr) (s : State) : Effects i s s := Relation.ReflTransGen.refl

theorem Effect.single (h : Effect i s t) : Effects i s t := Relation.ReflTransGen.single h

theorem Effects.step (h : Effects i s t) (h' : Effect i t u) : Effects i s u := Relation.ReflTransGen.tail h h'

/-! ### The shared operations as effects -/

theorem Effects.pushBytes (hm : i.writesMemory = true) (hsp : i.writesSp = true) (h : Effects i s t) (hi lo : Byte) :
    Effects i s (t.pushBytes hi lo) :=
  ((h.step (.write _ _ _ hm)).step (.write _ _ _ hm)).step (.stackPointer _ _ hsp)

theorem Effects.popWord (hsp : i.writesSp = true) (h : Effects i s t) : Effects i s t.popWord.2 :=
  ((h.step (.read _ _)).step (.read _ _)).step (.stackPointer _ _ hsp)

theorem Effects.callTo (hm : i.writesMemory = true) (hsp : i.writesSp = true) (hpc : i.writesPc = true) (s : State)
    (w : Word) : Effects i s (s.callTo w) :=
  ((Effects.refl i s).pushBytes hm hsp _ _).step (.programCounter _ w hpc)

theorem Effects.returnFrom (hsp : i.writesSp = true) (hpc : i.writesPc = true) (s : State) :
    Effects i s s.returnFrom :=
  ((Effects.refl i s).popWord hsp).step (.programCounter _ _ hpc)

theorem Effects.jumpTo (hpc : i.writesPc = true) (s : State) (w : Word) : Effects i s (s.jumpTo w) :=
  (Effect.programCounter s w hpc).single

theorem Effects.whenHolds {effect : State → State} (cond : Cond) (h : Effects i s (effect s)) :
    Effects i s (s.whenHolds cond effect) := by
  unfold State.whenHolds
  split
  · exact h
  · exact .refl i s

theorem Effects.readReg (r : Reg) (s : State) : Effects i s (readReg r s).2 := by
  cases r with
  | m => exact (Effect.read s s.hl).single
  | _ => exact .refl i s

theorem Effects.writeReg (r : Reg) (v : Byte) (hm : r = .m → i.writesMemory = true) (h : Effects i s t) :
    Effects i s (writeReg r v t) := by
  cases r with
  | m => exact h.step (.write _ _ _ (hm rfl))
  | _ => exact h.step (.regs _ _)

theorem Effects.writePair (p : RegPair) (w : Word) (hsp : p = .sp → i.writesSp = true) (s : State) :
    Effects i s (writePair p w s) := by
  cases p with
  | sp => exact (Effect.stackPointer s w (hsp rfl)).single
  | _ => exact (Effect.regs s _).single

/-- All flags written, by an instruction that writes every flag. -/
theorem Effects.setFlags (hszap : i.writesSzap = true) (hcy : i.writesCy = true) (h : Effects i s t) (f : Flags) :
    Effects i s (t.setFlags f) :=
  h.step (.flags _ _ (fun hn => absurd hszap (by simp [hn])) (fun hn => absurd hcy (by simp [hn])))

theorem Effects.accumulate (hszap : i.writesSzap = true) (hcy : i.writesCy = true) (h : Effects i s t) (o : AluOut) :
    Effects i s (t.accumulate o) :=
  (h.step (.regs _ _)).setFlags hszap hcy _

theorem Effects.setCy (hcy : i.writesCy = true) (h : Effects i s t) (c : Bool) : Effects i s (t.setCy c) :=
  h.step (.flags _ _ (fun _ => rfl) (fun hn => absurd hcy (by simp [hn])))

theorem Effects.flagByteOut (s : State) : Effects i s s.flagByteOut.2 := by
  unfold State.flagByteOut
  split
  · exact .refl i s
  · exact (Effect.draw s).single

theorem Effects.pinsForRim (s : State) : Effects i s s.pinsForRim.2 := by
  unfold State.pinsForRim
  split
  · exact .refl i s
  · exact (Effect.draw s).single

/-- An unused opcode that answers a next state has the effect of the instruction it stands for. -/
theorem illegalOpcode_next {b : Byte} {effect : State → State} (h : illegalOpcode b effect s = .next t) :
    t = effect s := by
  unfold illegalOpcode at h
  split at h <;> cases h
  rfl

theorem effects_of_illegalOpcode {b : Byte} {effect : State → State} (heffect : Effects i s (effect s))
    (h : illegalOpcode b effect s = .next t) : Effects i s t :=
  illegalOpcode_next h ▸ heffect

/-! ### Every instruction -/

/-- A next state is reached by elementary effects of the instruction. -/
theorem effects_of_exec (h : exec i s = .next t) : Effects i s t := by
  cases i with
  | mov dst src =>
    cases h
    exact (Effects.readReg src s).writeReg dst _ (by rintro rfl; rfl)
  | mvi dst v =>
    cases h
    exact (Effects.refl _ s).writeReg dst v (by rintro rfl; rfl)
  | lxi p w =>
    cases h
    exact .writePair p w (by rintro rfl; rfl) s
  | inx p | dcx p =>
    cases h
    exact .writePair p _ (by rintro rfl; rfl) s
  | lda w | ldax p =>
    cases h
    exact (Effect.read s _).single.step (.regs _ _)
  | lhld w =>
    cases h
    exact ((Effect.read s _).single.step (.read _ _)).step (.regs _ _)
  | sta w | stax p =>
    cases h
    exact (Effect.write s _ _ rfl).single
  | shld w =>
    cases h
    exact (Effect.write s _ _ rfl).single.step (.write _ _ _ rfl)
  | xchg =>
    cases h
    exact (Effect.regs s _).single.step (.regs _ _)
  | add r | adc r | sub r | sbb r | ana r | xra r | ora r =>
    cases h
    exact (Effects.readReg r s).accumulate rfl rfl _
  | adi v | aci v | sui v | sbi v | ani v | xri v | ori v | daa =>
    cases h
    exact (Effects.refl _ s).accumulate rfl rfl _
  | cmp r =>
    cases h
    exact (Effects.readReg r s).setFlags rfl rfl _
  | cpi v =>
    cases h
    exact (Effects.refl _ s).setFlags rfl rfl _
  | inr r | dcr r =>
    cases h
    refine Effects.step ((Effects.readReg r s).writeReg r _ ?_) (.flags _ _ (fun hn => nomatch hn) fun _ => ?_)
    · rintro rfl
      rfl
    · simp [AluOut.flagsKeepCy]
  | dad p =>
    cases h
    exact (Effect.regs s _).single.setCy rfl _
  | rlc | rrc | ral | rar =>
    cases h
    exact (Effect.regs s _).single.setCy rfl _
  | cma =>
    cases h
    exact (Effect.regs s _).single
  | cmc | stc =>
    cases h
    exact (Effects.refl _ s).setCy rfl _
  | jmp w =>
    cases h
    exact .jumpTo rfl s w
  | pchl =>
    cases h
    exact .jumpTo rfl s _
  | jnz w | jz w | jnc w | jc w | jpo w | jpe w | jp w | jm w =>
    cases h
    exact .whenHolds _ (.jumpTo rfl s w)
  | call w =>
    cases h
    exact .callTo rfl rfl rfl s w
  | rst n =>
    cases h
    exact .callTo rfl rfl rfl s _
  | cnz w | cz w | cnc w | cc w | cpo w | cpe w | cp w | cm w =>
    cases h
    exact .whenHolds _ (.callTo rfl rfl rfl s w)
  | ret =>
    cases h
    exact .returnFrom rfl rfl s
  | rnz | rz | rnc | rc | rpo | rpe | rp | rm =>
    cases h
    exact .whenHolds _ (.returnFrom rfl rfl s)
  | push p =>
    cases p with
    | psw =>
      cases h
      exact (Effects.flagByteOut s).pushBytes rfl rfl _ _
    | bc | de | hl =>
      cases h
      exact (Effects.refl _ s).pushBytes rfl rfl _ _
  | pop p =>
    cases p with
    | psw =>
      cases h
      exact (((Effects.refl _ s).popWord rfl).step (.regs _ _)).setFlags rfl rfl _
    | bc | de | hl =>
      cases h
      exact ((Effects.refl _ s).popWord rfl).step (.regs _ _)
  | xthl =>
    cases h
    have hread := (Effect.read (i := .xthl) s s.sp).single.step (.read _ (s.sp + 1#16))
    exact ((hread.step (.write _ _ _ rfl)).step (.write _ _ _ rfl)).step (.regs _ _)
  | sphl =>
    cases h
    exact (Effect.stackPointer s _ rfl).single
  | inPort p =>
    cases h
    exact (Effect.input s p rfl).single.step (.regs _ _)
  | outPort p =>
    cases h
    exact (Effect.output s p _).single
  | ei =>
    cases h
    exact (Effect.enable s _ _ _ (.inl rfl) le_rfl (.inl rfl)).single
  | di =>
    cases h
    exact (Effect.enable s _ _ _ (.inr rfl) (Nat.zero_le _) (.inr rfl)).single
  | hlt =>
    cases h
    exact (Effect.halt s rfl).single
  | nop =>
    cases h
    exact .refl _ s
  | sim =>
    change execSim s = .next t at h
    unfold execSim at h
    split at h
    · cases h
      exact (Effect.masks s _ rfl).single
    · exact effects_of_illegalOpcode (.refl _ s) h
  | rim =>
    change execRim s = .next t at h
    unfold execRim at h
    split at h
    · cases h
      exact (Effects.pinsForRim s).step (.regs _ _)
    · exact effects_of_illegalOpcode (.refl _ s) h
  | unused08 | unused10 | unused18 | unused28 | unused38 | unused20 | unused30 =>
    exact effects_of_illegalOpcode (.refl _ s) h
  | unusedCB w => exact effects_of_illegalOpcode (.jumpTo rfl s w) h
  | unusedD9 => exact effects_of_illegalOpcode (.returnFrom rfl rfl s) h
  | unusedDD w | unusedED w | unusedFD w => exact effects_of_illegalOpcode (.callTo rfl rfl rfl s w) h

/-- What every elementary effect of an instruction does, the instruction does: the induction over its effects. -/
theorem exec_lift {r : State → State → Prop} (hrefl : ∀ a, r a a) (htrans : ∀ {a b c}, r a b → r b c → r a c)
    (heffect : ∀ {a b}, Effect i a b → r a b) (h : exec i s = .next t) : r s t := by
  have heffects := effects_of_exec h
  clear h
  induction heffects with
  | refl => exact hrefl s
  | tail _ hstep ih => exact htrans ih (heffect hstep)

/-- What every elementary effect of an instruction leaves, the instruction leaves. -/
theorem exec_keeps {α : Type} (f : State → α) (heffect : ∀ {a b}, Effect i a b → f b = f a)
    (h : exec i s = .next t) : f t = f s :=
  exec_lift (r := fun a b => f b = f a) (fun _ => rfl) (fun hab hbc => hbc.trans hab) heffect h

/-! ### What the elementary effects leave -/

theorem memWrite_inputs (s : State) (a : Word) (v : Byte) : (s.memWrite a v).env.inputs = s.env.inputs := by
  rw [State.memWrite_env]
  split <;> rfl

theorem memWrite_slots (s : State) (a : Word) (v : Byte) : (s.memWrite a v).env.slots = s.env.slots := by
  rw [State.memWrite_env]
  split <;> rfl

@[simp] theorem writeMasks_inputs (s : State) (m : Masks) : (s.writeMasks m).env.inputs = s.env.inputs := by
  unfold State.writeMasks
  split <;> rfl

@[simp] theorem writeMasks_slots (s : State) (m : Masks) : (s.writeMasks m).env.slots = s.env.slots := by
  unfold State.writeMasks
  split <;> rfl

theorem Effect.szap_eq (hi : i.writesSzap = false) (h : Effect i s t) :
    t.flags = { s.flags with cy := t.flags.cy } := by
  cases h with
  | flags f hszap _ => exact hszap hi
  | _ => simp

theorem Effect.cy_eq (hi : i.writesCy = false) (h : Effect i s t) : t.flags.cy = s.flags.cy := by
  cases h with
  | flags f _ hcy => exact hcy hi
  | _ => simp

theorem Effect.sp_eq (hi : i.writesSp = false) (h : Effect i s t) : t.sp = s.sp := by
  cases h with
  | stackPointer w hsp => simp [hi] at hsp
  | _ => simp

theorem Effect.pc_eq (hi : i.writesPc = false) (h : Effect i s t) : t.pc = s.pc := by
  cases h with
  | programCounter w hpc => simp [hi] at hpc
  | _ => simp

theorem Effect.mem_eq (hi : i.writesMemory = false) (h : Effect i s t) : t.mem = s.mem := by
  cases h with
  | write a v hm => simp [hi] at hm
  | _ => simp

theorem Effect.enable_eq (hei : i ≠ .ei) (hdi : i ≠ .di) (h : Effect i s t) :
    (t.inte, t.inteLate, t.eiPending) = (s.inte, s.inteLate, s.eiPending) := by
  cases h with
  | enable on late n henable => exact absurd henable (by simp [hei, hdi])
  | _ => simp

theorem Effect.halted_eq (hi : i ≠ .hlt) (h : Effect i s t) : t.halted = s.halted := by
  cases h with
  | halt hhlt => exact absurd hhlt hi
  | _ => simp

theorem Effect.masks_eq (hi : i ≠ .sim) (h : Effect i s t) : t.masks = s.masks := by
  cases h with
  | masks m hsim => exact absurd hsim hi
  | _ => simp

theorem Effect.inputs_eq (hi : ∀ p, i ≠ .inPort p) (h : Effect i s t) : t.env.inputs = s.env.inputs := by
  cases h with
  | input p hin => exact absurd hin (hi p)
  | write a v _ => exact memWrite_inputs s a v
  | output p v => rfl
  | _ => simp

theorem Effect.slots_eq (h : Effect i s t) : t.env.slots = s.env.slots := by
  cases h with
  | input p _ => rfl
  | output p v => rfl
  | write a v _ => exact memWrite_slots s a v
  | _ => simp

theorem Effect.accepted_eq (h : Effect i s t) : t.accepted = s.accepted := by
  cases h <;> simp

theorem Effect.clk_eq (h : Effect i s t) : t.clk = s.clk := by
  cases h <;> simp

theorem Effect.cfg_eq (h : Effect i s t) : t.cfg = s.cfg := by
  cases h <;> simp

/-- The history grows at most: reads and writes of a device, `IN`, `OUT`, a change of `SOD`. -/
theorem Effect.history_prefix (h : Effect i s t) : s.env.history <+: t.env.history := by
  cases h with
  | read a => exact s.memRead_history a
  | write a v _ => exact s.memWrite_history a v
  | input p _ => exact ⟨_, rfl⟩
  | output p v => exact ⟨_, rfl⟩
  | masks m _ => exact s.writeMasks_history m
  | _ => simp

/-- A write lands where RAM stands only. -/
theorem Effect.byteAt_eq {x : Word} (hx : s.kindAt x ≠ .ram) (h : Effect i s t) : t.byteAt x = s.byteAt x := by
  cases h with
  | write a v _ =>
    rw [State.memWrite_byteAt, if_neg]
    rintro ⟨rfl, hram⟩
    exact hx hram
  | _ => exact State.byteAt_congr _ _ (by simp) x

/-! ### The same for instructions -/

theorem exec_cfg (h : exec i s = .next t) : t.cfg = s.cfg := exec_keeps State.cfg Effect.cfg_eq h

theorem exec_accepted (h : exec i s = .next t) : t.accepted = s.accepted :=
  exec_keeps State.accepted Effect.accepted_eq h

theorem exec_slots (h : exec i s = .next t) : t.env.slots = s.env.slots := exec_keeps (·.env.slots) Effect.slots_eq h

theorem exec_history (h : exec i s = .next t) : s.env.history <+: t.env.history :=
  exec_lift (r := fun a b => a.env.history <+: b.env.history) (fun _ => List.prefix_rfl) List.IsPrefix.trans
    Effect.history_prefix h

theorem exec_enable (hei : i ≠ .ei) (hdi : i ≠ .di) (h : exec i s = .next t) :
    t.inte = s.inte ∧ t.inteLate = s.inteLate ∧ t.eiPending = s.eiPending := by
  simpa only [Prod.mk.injEq] using
    exec_keeps (fun a => (a.inte, a.inteLate, a.eiPending)) (Effect.enable_eq hei hdi) h

/-- Settles O22: only an effect on the flags touches them, and it leaves what the instruction does not write. -/
theorem flagWriters : Obligations.FlagWriters := by
  intro i s t h
  refine ⟨fun hszap => ?_, fun hcy => exec_keeps (·.flags.cy) (Effect.cy_eq hcy) h⟩
  have hkeeps := exec_keeps (fun a => { a.flags with cy := false })
    (fun heffect => congrArg (fun f : Flags => { f with cy := false }) (heffect.szap_eq hszap)) h
  simpa only [Flags.mk.injEq, and_true] using hkeeps

/-- Settles O23: each field has its own effect, which one instruction has, or two, or none. -/
theorem controlStateWriters : Obligations.ControlStateWriters := by
  intro i s t h
  exact ⟨fun hei hdi => exec_enable hei hdi h, fun hhlt => exec_keeps State.halted (Effect.halted_eq hhlt) h,
    fun hsim => exec_keeps State.masks (Effect.masks_eq hsim) h,
    fun hin => exec_keeps (·.env.inputs) (Effect.inputs_eq hin) h, exec_accepted h, exec_slots h,
    exec_keeps State.clk Effect.clk_eq h, exec_cfg h⟩

/-- Settles O25: only an effect on `PC` writes it. -/
theorem programCounterWriters : Obligations.ProgramCounterWriters := by
  intro i s t h hi
  exact exec_keeps State.pc (Effect.pc_eq hi) h

/-- Settles O26: only a write cycle changes the memory. -/
theorem memoryWriters : Obligations.MemoryWriters := by
  intro i s t h hi
  exact State.byteAt_congr _ _ (exec_keeps State.mem (Effect.mem_eq hi) h)

/-! ### The stack pointer by calls and returns (10_state.md R24) -/

@[simp] theorem callTo_sp (s : State) (w : Word) : (s.callTo w).sp = s.sp - 2#16 := s.pushPc_sp

/-- A call that no condition decides. -/
theorem exec_call_form (hcall : i.isCall = true) (hcond : ∀ cond w, i ≠ .ccc cond w) (h : exec i s = .next t) :
    ∃ w, t = s.callTo w := by
  cases i with
  | call w => cases h; exact ⟨w, rfl⟩
  | rst n => cases h; exact ⟨rstTarget n, rfl⟩
  | unusedDD w | unusedED w | unusedFD w => exact ⟨w, illegalOpcode_next h⟩
  | cnz w => exact absurd rfl (hcond .nz w)
  | cz w => exact absurd rfl (hcond .z w)
  | cnc w => exact absurd rfl (hcond .nc w)
  | cc w => exact absurd rfl (hcond .c w)
  | cpo w => exact absurd rfl (hcond .po w)
  | cpe w => exact absurd rfl (hcond .pe w)
  | cp w => exact absurd rfl (hcond .p w)
  | cm w => exact absurd rfl (hcond .m w)
  | _ => cases hcall

/-- A return that no condition decides. -/
theorem exec_return_form (hreturn : i.isReturn = true) (hcond : ∀ cond, i ≠ .rcc cond) (h : exec i s = .next t) :
    t = s.returnFrom := by
  cases i with
  | ret => cases h; rfl
  | unusedD9 => exact illegalOpcode_next h
  | rnz => exact absurd rfl (hcond .nz)
  | rz => exact absurd rfl (hcond .z)
  | rnc => exact absurd rfl (hcond .nc)
  | rc => exact absurd rfl (hcond .c)
  | rpo => exact absurd rfl (hcond .po)
  | rpe => exact absurd rfl (hcond .pe)
  | rp => exact absurd rfl (hcond .p)
  | rm => exact absurd rfl (hcond .m)
  | _ => cases hreturn

theorem exec_push_sp {p : StackPair} (h : exec (.push p) s = .next t) : t.sp = s.sp - 2#16 := by
  cases p with
  | psw => cases h; simp
  | bc | de | hl => cases h; rfl

theorem exec_pop_sp {p : StackPair} (h : exec (.pop p) s = .next t) : t.sp = s.sp + 2#16 := by
  rw [Stack.exec_pop] at h
  cases h
  rfl

open ControlTransfer in
/-- Settles O24: an instruction outside the list has no effect on `SP`; a push, a call, a pop and a return move it by
2, a conditional form where its condition holds. -/
theorem stackPointerWriters : Obligations.StackPointerWriters := by
  intro i s t h
  refine ⟨fun hi => exec_keeps State.sp (Effect.sp_eq hi) h, ?_, ?_, ?_, ?_⟩
  · rintro (⟨hcall, hcond⟩ | ⟨p, rfl⟩)
    · obtain ⟨w, rfl⟩ := exec_call_form hcall hcond h
      exact callTo_sp s w
    · exact exec_push_sp h
  · rintro cond w rfl
    rw [exec_ccc] at h
    cases h
    exact whenHolds_effect_or_eq (P := fun u => u.sp = s.sp - 2#16) s cond (callTo_sp s w)
  · rintro (⟨hreturn, hcond⟩ | ⟨p, rfl⟩)
    · rw [exec_return_form hreturn hcond h]
      exact s.returnFrom_sp
    · exact exec_pop_sp h
  · rintro cond rfl
    rw [exec_rcc] at h
    cases h
    exact whenHolds_effect_or_eq (P := fun u => u.sp = s.sp + 2#16) s cond s.returnFrom_sp

end Sys2Proof.Writers
end

section
/-! The sampling point (60_exceptions.md R263, R266, R274, R276; 70_reset_and_hazards.md R300) as one equation for each
variant and for RESET. -/

namespace Sys2Proof.Sampling

open Sys2Proof.Machine

section

variable (s : State)

/-! ### The sampling without RESET -/

/-- Without RESET the sampling latches an edge, decides, and ends what `DI`'s own end still saw. -/
theorem sample_of_no_reset (h : s.nextSlot.reset = false) :
    s.sample = ((s.dropSlot.latchEdge s.nextSlot).decideEntry s.nextSlot).endLate := by
  simp [State.sample, h]

theorem latchEdge_i8080 (x : Slot) (hv : s.cfg.variant = .i8080) : s.latchEdge x = s := by
  simp only [State.latchEdge, hv]

theorem latchEdge_i8085 (x : Slot) (hv : s.cfg.variant = .i8085) :
    s.latchEdge x = s.setMasks { s.masks with r75 := s.masks.r75 || x.edge75 } := by
  simp only [State.latchEdge, hv]
  cases x.edge75 <;> simp [State.setMasks]

theorem trapRequest_i8080 (x : Slot) (hv : s.cfg.variant = .i8080) : s.trapRequest x = false := by
  simp only [State.trapRequest, hv]

theorem trapRequest_i8085 (x : Slot) (hv : s.cfg.variant = .i8085) : s.trapRequest x = x.trap := by
  simp only [State.trapRequest, hv]

theorem maskableRequest_i8080 (x : Slot) (hv : s.cfg.variant = .i8080) :
    s.maskableRequest x = if x.intr = true then some (.supplied x.ack1 x.ack2 x.ack3) else none := by
  simp only [State.maskableRequest, hv]

theorem maskableRequest_i8085 (x : Slot) (hv : s.cfg.variant = .i8085) :
    s.maskableRequest x =
      if s.masks.r75 = true ∧ s.masks.m75 = false then some (.restart .rst75)
      else if x.req65 = true ∧ s.masks.m65 = false then some (.restart .rst65)
      else if x.req55 = true ∧ s.masks.m55 = false then some (.restart .rst55)
      else if x.intr = true then some (.supplied x.ack1 x.ack2 x.ack3) else none := by
  simp only [State.maskableRequest, hv, Bool.and_eq_true, Bool.not_eq_true']

theorem enabled_eq_false_iff : s.enabled = false ↔ s.inte = false ∧ s.inteLate = false := Bool.or_eq_false_iff

/-- What the decision leaves of the delay of `EI` and what it accepts, as one equation. -/
theorem decideEntry_eq (x : Slot) (haccepted : s.accepted = none) :
    s.decideEntry x = { s with
      eiPending := if s.trapRequest x = true then s.eiPending else s.eiPending - 1
      accepted :=
        if s.trapRequest x = true then some (.restart .trap)
        else if 0 < s.eiPending then none
        else if s.inte = false ∧ s.inteLate = false then none
        else s.maskableRequest x } := by
  simp only [← enabled_eq_false_iff]
  rcases s.decideEntry_cases x with ⟨htrap, heq⟩ | ⟨htrap, hdelay, heq⟩ | ⟨htrap, hdelay, hon, e, hreq, heq⟩ |
    ⟨htrap, hdelay, hreq, heq⟩
  · simp [heq, htrap, State.setAccepted]
  · simp [heq, htrap, hdelay, State.setEnable, haccepted]
  · simp [heq, htrap, hdelay, hon, hreq, State.setAccepted]
  · have hnone : (if s.enabled = false then none else s.maskableRequest x) = none := by
      cases hon : s.enabled <;> simp [hreq, hon]
    rw [heq]
    apply State.ext <;> simp [htrap, hdelay, hnone, haccepted]

/-- The sampling without RESET when nothing is accepted yet: from the state `r` with the edge latched, `trap` or the
delay or the request decides. -/
theorem sample_eq (hreset : s.nextSlot.reset = false) (haccepted : s.accepted = none) {r : State} {trap : Bool}
    {request : Option Entry} (hr : s.dropSlot.latchEdge s.nextSlot = r) (htrap : r.trapRequest s.nextSlot = trap)
    (hrequest : r.maskableRequest s.nextSlot = request) :
    s.sample = { r with
      inteLate := false
      eiPending := if trap = true then r.eiPending else r.eiPending - 1
      accepted :=
        if trap = true then some (.restart .trap)
        else if 0 < r.eiPending then none
        else if r.inte = false ∧ r.inteLate = false then none
        else request } := by
  have haccepted' : r.accepted = none := by
    rw [← hr, State.latchEdge_accepted]
    exact haccepted
  rw [sample_of_no_reset s hreset, hr, decideEntry_eq r _ haccepted', htrap, hrequest]
  rfl

/-! ### What the sampling without RESET leaves -/

theorem sample_inte (hreset : s.nextSlot.reset = false) : s.sample.inte = s.inte := by
  simp [sample_of_no_reset s hreset]

/-- The variant alone says whether there is a `TRAP`. -/
theorem trapRequest_congr {t : State} (x : Slot) (h : t.cfg = s.cfg) : t.trapRequest x = s.trapRequest x := by
  simp only [State.trapRequest, h]

theorem trapRequest_eq_false (x : Slot) (h : s.cfg.variant = .i8085 → x.trap = false) : s.trapRequest x = false := by
  cases hv : s.cfg.variant with
  | i8080 => exact trapRequest_i8080 s x hv
  | i8085 => rw [trapRequest_i8085 s x hv, h hv]

/-- Without `TRAP` the delay of `EI` is counted down, if one runs. -/
theorem sample_eiPending (hreset : s.nextSlot.reset = false) (haccepted : s.accepted = none)
    (htrap : s.trapRequest s.nextSlot = false) : s.sample.eiPending = s.eiPending - 1 := by
  rw [sample_eq s hreset haccepted rfl ((trapRequest_congr s _ (by simp)).trans htrap) rfl]
  simp

/-- Without `TRAP` nothing is accepted while a delay runs or interrupts are off. -/
theorem sample_accepted_none (hreset : s.nextSlot.reset = false) (haccepted : s.accepted = none)
    (htrap : s.trapRequest s.nextSlot = false) (hblocked : 0 < s.eiPending ∨ s.enabled = false) :
    s.sample.accepted = none := by
  rw [enabled_eq_false_iff] at hblocked
  rw [sample_eq s hreset haccepted rfl ((trapRequest_congr s _ (by simp)).trans htrap) rfl]
  rcases hblocked with hdelay | hoff
  · simp [hdelay]
  · simp [hoff]

/-- Without RESET no delay is started. -/
theorem sample_eiPending_le (hreset : s.nextSlot.reset = false) : s.sample.eiPending ≤ s.eiPending := by
  have hdecide (a : State) (x : Slot) : (a.decideEntry x).eiPending ≤ a.eiPending := by
    rcases a.decideEntry_cases x with ⟨-, h⟩ | ⟨-, -, h⟩ | ⟨-, -, -, e, -, h⟩ | ⟨-, -, -, h⟩ <;> rw [h] <;> simp
  simpa [sample_of_no_reset s hreset] using hdecide (s.dropSlot.latchEdge s.nextSlot) s.nextSlot

/-! ### The statements -/

/-- A request is accepted when no delay runs, interrupts are enabled and it is shown. -/
theorem acceptIf_eq (delay : Nat) (on late shown : Bool) (e : Entry) :
    (if 0 < delay then none else if on = false ∧ late = false then none else if shown = true then some e else none) =
      if delay = 0 ∧ (on = true ∨ late = true) ∧ shown = true then some e else none := by
  cases delay <;> cases on <;> cases late <;> simp

/-- Settles O11: no edge is latched and there is no `TRAP`. -/
theorem samplingOfI8080 : Obligations.SamplingOfI8080 := by
  intro s hv hreset haccepted
  have hsample := sample_eq s hreset haccepted (latchEdge_i8080 s.dropSlot _ hv) (trapRequest_i8080 s.dropSlot _ hv)
    (maskableRequest_i8080 s.dropSlot _ hv)
  exact hsample.trans (congrArg (fun e => { s with
      eiPending := s.eiPending - 1, inteLate := false, accepted := e
      env := { s.env with slots := s.env.slots.tail } }) (acceptIf_eq _ _ _ _ _))

/-- Settles O12: the edge is latched first; the decision then takes the requests in their order. -/
theorem samplingOfI8085 : Obligations.SamplingOfI8085 := by
  intro s hv hreset haccepted x r75
  exact sample_eq s hreset haccepted (latchEdge_i8085 s.dropSlot _ hv) (trapRequest_i8085 _ _ hv)
    (maskableRequest_i8085 _ _ hv)

/-! ### The sampling that sees RESET -/

theorem sample_of_reset (h : s.nextSlot.reset = true) : s.sample = s.dropSlot.resetInput := by
  simp [State.sample, h]

/-- The latches written: `SOD` shows as an event if it changes. -/
theorem writeMasks_eq (m : Masks) :
    s.writeMasks m = { s with
      masks := m
      env := { s.env with history := s.env.history ++ if m.sod = s.masks.sod then [] else [.serial m.sod] } } := by
  unfold State.writeMasks
  by_cases h : m.sod = s.masks.sod <;> simp [h, State.setMasks, State.setEnv]

/-- Settles O16: on the I8085 the latches are written too. -/
theorem resetInputAssigns : Obligations.ResetInputAssigns := by
  intro s hreset r
  rw [sample_of_reset s hreset]
  cases hv : s.cfg.variant with
  | i8080 => apply State.ext <;> simp [State.resetInput, hv, r]
  | i8085 =>
    have hv' : s.dropSlot.cfg.variant = .i8085 := hv
    simp only [State.resetInput, hv', writeMasks_eq]
    by_cases hsod : r.sod = s.masks.sod <;>
      simp [hsod, r, State.setEnable, State.setPc, State.setHalted, State.setAccepted, State.setEnv]

/-- Settles O15: the values stand in the default of `RESET_STATE`. -/
theorem resetValues : Obligations.ResetValues := ⟨rfl, rfl, rfl, rfl, rfl⟩

end

end Sys2Proof.Sampling
end

section
/-! The step (00_scope.md R13, 60_exceptions.md R264, R270, R275): the instruction that a step runs and the state it
runs from, what the fetch reads, and from these the statements about every step. -/

namespace Sys2Proof.Steps

open Sys2Proof.Machine
open Sys2Proof.Writers
open Sys2Proof.HaltAndNop (step_of_halted sample_halted sample_env)

section

variable {s t : State} {i : Instr} {f : State}

/-! ### What a step does -/

/-- The step at `s` runs the instruction `i` from the state `f`: a supplied one after the entry, or the one fetched. -/
def Starts (s : State) (i : Instr) (f : State) : Prop :=
  (∃ b1 b2 b3, s.accepted = some (.supplied b1 b2 b3) ∧ i = decodeOp s.cfg.variant b1 b2 b3 ∧ f = s.enterInterrupt) ∨
  (s.accepted = none ∧ s.halted = false ∧ i = s.fetch.1 ∧ f = s.fetch.2)

theorem step_of_starts (h : Starts s i f) : step s = retire i f (exec i f) := by
  rcases h with ⟨b1, b2, b3, haccepted, rfl, rfl⟩ | ⟨haccepted, hhalted, rfl, rfl⟩
  · simp only [step, haccepted]
  · simp [step, haccepted, hhalted]

theorem step_of_restart {r : Restart} (h : s.accepted = some (.restart r)) : step s = .next (s.takeRestart r) := by
  simp only [step, h]

/-- A step makes an internal restart, or samples in the halted state, or runs an instruction. -/
theorem step_kind (s : State) :
    (∃ r, s.accepted = some (.restart r)) ∨ (s.accepted = none ∧ s.halted = true) ∨ ∃ i f, Starts s i f := by
  cases haccepted : s.accepted with
  | none =>
    cases hhalted : s.halted with
    | true => exact .inr (.inl ⟨rfl, rfl⟩)
    | false => exact .inr (.inr ⟨_, _, .inr ⟨haccepted, hhalted, rfl, rfl⟩⟩)
  | some e =>
    cases e with
    | supplied b1 b2 b3 => exact .inr (.inr ⟨_, _, .inl ⟨b1, b2, b3, haccepted, rfl, rfl⟩⟩)
    | restart r => exact .inl ⟨r, rfl⟩

/-- All that a next state can be. -/
theorem step_next_cases (h : step s = .next t) :
    (∃ r, s.accepted = some (.restart r) ∧ t = s.takeRestart r) ∨
    (s.accepted = none ∧ s.halted = true ∧ t = s.sample) ∨
    ∃ i f u, Starts s i f ∧ exec i f = .next u ∧ t = (u.setClk (u.clk + clocks i f)).sample := by
  rcases step_kind s with ⟨r, haccepted⟩ | ⟨haccepted, hhalted⟩ | ⟨i, f, hstarts⟩
  · rw [step_of_restart haccepted] at h
    cases h
    exact .inl ⟨r, haccepted, rfl⟩
  · rw [step_of_halted s haccepted hhalted] at h
    cases h
    exact .inr (.inl ⟨haccepted, hhalted, rfl⟩)
  · rw [step_of_starts hstarts] at h
    cases hexec : exec i f with
    | next u =>
      rw [hexec] at h
      cases h
      exact .inr (.inr ⟨i, f, u, hstarts, hexec, rfl⟩)
    | fault r => rw [hexec] at h; cases h
    | refused r => rw [hexec] at h; cases h

theorem stepRuns_of_starts (h : Starts s i f) : StepRuns s i f := by
  refine ⟨fun t ht => ?_, fun r hr => ?_⟩
  · rw [step_of_starts h, ht]
    rfl
  · rw [step_of_starts h, hr]
    rfl

/-- The state an instruction starts from has the parameters of the state before the step. -/
theorem Starts.cfg_eq (h : Starts s i f) : f.cfg = s.cfg := by
  rcases h with ⟨b1, b2, b3, -, -, rfl⟩ | ⟨-, -, -, rfl⟩
  · exact s.enterInterrupt_cfg
  · rw [s.fetch_frame.1]

theorem Starts.decoded (h : Starts s i f) : ∃ b1 b2 b3, i = decodeOp s.cfg.variant b1 b2 b3 := by
  rcases h with ⟨b1, b2, b3, -, hi, -⟩ | ⟨-, -, rfl, -⟩
  · exact ⟨b1, b2, b3, hi⟩
  · exact s.fetch_decodeOp

/-- What every part of a step does, the step does. -/
theorem step_lift {r : State → State → Prop} (htrans : ∀ {a b c}, r a b → r b c → r a c)
    (hrestart : ∀ a k, r a (a.takeRestart k)) (henter : ∀ a, r a a.enterInterrupt) (hfetch : ∀ a, r a a.fetch.2)
    (hexec : ∀ {i a b}, exec i a = .next b → r a b) (hclk : ∀ a n, r a (a.setClk n)) (hsample : ∀ a, r a a.sample)
    (h : step s = .next t) : r s t := by
  rcases step_next_cases h with ⟨k, -, rfl⟩ | ⟨-, -, rfl⟩ | ⟨i, f, u, hstarts, hu, rfl⟩
  · exact hrestart s k
  · exact hsample s
  · have hf : r s f := by
      rcases hstarts with ⟨_, _, _, -, -, rfl⟩ | ⟨-, -, -, rfl⟩
      · exact henter s
      · exact hfetch s
    exact htrans (htrans (htrans hf (hexec hu)) (hclk _ _)) (hsample _)

/-- An internal restart is the entry, the latch of RST 7.5 cleared by RST 7.5, and a call of the vector. -/
theorem takeRestart_eq (s : State) (r : Restart) :
    s.takeRestart r = (s.enterInterrupt.setMasks { s.masks with r75 := s.masks.r75 && decide (r ≠ .rst75) }).callTo
      (restartVector r) := by
  cases r <;> simp [State.takeRestart, State.callTo] <;> rfl

/-! ### The history -/

theorem fetch_history (s : State) : s.env.history <+: s.fetch.2.env.history := by
  have hbyte (a : State) : a.env.history <+: a.fetchByte.2.env.history := by
    rw [a.fetchByte_frame]
    exact a.memRead_history a.pc
  unfold State.fetch
  simp only
  split
  · exact (hbyte _).trans (hbyte _)
  · exact ((hbyte _).trans (hbyte _)).trans (hbyte _)
  · exact hbyte _

theorem sample_history_prefix (s : State) : s.env.history <+: s.sample.env.history := by
  cases hreset : s.nextSlot.reset with
  | false => rw [sample_env s hreset]
  | true => rw [Sampling.resetInputAssigns s hreset]; exact List.prefix_append _ _

theorem takeRestart_history (s : State) (r : Restart) : s.env.history <+: (s.takeRestart r).env.history := by
  rw [takeRestart_eq]
  exact State.pushPc_history (s.enterInterrupt.setMasks _)

/-- Settles O21: every part of a step only adds to the history. -/
theorem historyOnlyGrows : Obligations.HistoryOnlyGrows := by
  intro s t h
  have hprefix : s.env.history <+: t.env.history :=
    step_lift (r := fun a b => a.env.history <+: b.env.history) List.IsPrefix.trans takeRestart_history
      (fun _ => List.prefix_rfl) fetch_history exec_history (fun _ _ => List.prefix_rfl) sample_history_prefix h
  obtain ⟨more, hmore⟩ := hprefix
  exact ⟨more, hmore.symm⟩

/-! ### The parameters and the bytes where no RAM stands -/

/-- `t` has the parameters of `s`, and its bytes where `s` has no RAM. -/
def KeepsRom (s t : State) : Prop := t.cfg = s.cfg ∧ ∀ x : Word, s.kindAt x ≠ .ram → t.byteAt x = s.byteAt x

theorem KeepsRom.of_mem_eq (hcfg : t.cfg = s.cfg) (hmem : t.mem = s.mem) : KeepsRom s t :=
  ⟨hcfg, fun x _ => State.byteAt_congr _ _ hmem x⟩

theorem KeepsRom.trans {u : State} (hst : KeepsRom s t) (htu : KeepsRom t u) : KeepsRom s u := by
  refine ⟨htu.1.trans hst.1, fun x hx => (htu.2 x ?_).trans (hst.2 x hx)⟩
  rwa [State.kindAt_congr _ _ hst.1]

theorem exec_keepsRom (h : exec i s = .next t) : KeepsRom s t :=
  exec_lift (fun _ => .of_mem_eq rfl rfl) KeepsRom.trans (fun he => ⟨he.cfg_eq, fun _ hx => he.byteAt_eq hx⟩) h

theorem takeRestart_keepsRom (s : State) (r : Restart) : KeepsRom s (s.takeRestart r) := by
  have hcall (a : State) (w : Word) : KeepsRom a (a.callTo w) := exec_keepsRom (i := .call w) rfl
  rw [takeRestart_eq]
  exact (KeepsRom.of_mem_eq rfl rfl).trans (hcall (s.enterInterrupt.setMasks _) _)

/-- Settles O19: every part of a step keeps the parameters and the bytes where no RAM stands. -/
theorem stepKeepsParametersAndRom : Obligations.StepKeepsParametersAndRom := by
  intro s t h
  have hfetch (a : State) : KeepsRom a a.fetch.2 := by
    rw [a.fetch_frame.1]
    exact .of_mem_eq rfl rfl
  exact step_lift (r := KeepsRom) KeepsRom.trans takeRestart_keepsRom (fun _ => .of_mem_eq rfl rfl) hfetch
    exec_keepsRom (fun _ _ => .of_mem_eq rfl rfl) (fun a => .of_mem_eq a.sample_cfg a.sample_mem) h

/-! ### Where a step stops -/

/-- What an unused opcode does if it does not answer a next state. -/
theorem illegalOpcode_fault {b : Byte} {effect : State → State} {r : Fault} (h : illegalOpcode b effect s = .fault r) :
    ¬(s.cfg.illegal = .aliased ∧ s.cfg.variant = .i8080) ∧ r = .illegalOpcode b := by
  unfold illegalOpcode at h
  split at h <;> cases h <;> simp_all

theorem illegalOpcode_ne_refused {b : Byte} {effect : State → State} {r : Refusal} :
    illegalOpcode b effect s ≠ .refused r := by
  unfold illegalOpcode
  split <;> nofun

/-- No instruction is refused, as a term or decoded. -/
theorem exec_ne_refused (i : Instr) (s : State) (r : Refusal) : exec i s ≠ .refused r := by
  cases i with
  | push p | pop p => cases p <;> nofun
  | sim =>
    change execSim s ≠ _
    unfold execSim
    split
    · nofun
    · exact illegalOpcode_ne_refused
  | rim =>
    change execRim s ≠ _
    unfold execRim
    split
    · nofun
    · exact illegalOpcode_ne_refused
  | unused08 | unused10 | unused18 | unused28 | unused38 | unusedCB | unusedD9 | unusedDD | unusedED | unusedFD
  | unused20 | unused30 => exact illegalOpcode_ne_refused
  | _ => nofun

/-- A well-formed instruction faults only as an unused opcode, and names that opcode. -/
theorem exec_fault (hwf : i.wellFormed s.cfg.variant = true) {r : Fault} (h : exec i s = .fault r) :
    ¬(s.cfg.illegal = .aliased ∧ s.cfg.variant = .i8080) ∧ i.isUnused = true ∧
      ∃ b, (encode i).head? = some b ∧ r = .illegalOpcode b := by
  cases i with
  | push p | pop p => cases p <;> cases h
  | sim | rim =>
    have hv : s.cfg.variant = .i8085 := of_decide_eq_true hwf
    simp [exec, execSim, execRim, hv] at h
  | unused08 | unused10 | unused18 | unused28 | unused38 | unusedCB | unusedD9 | unusedDD | unusedED | unusedFD
  | unused20 | unused30 =>
    obtain ⟨hpolicy, hopcode⟩ := illegalOpcode_fault h
    exact ⟨hpolicy, rfl, _, rfl, hopcode⟩
  | _ => cases h

/-- Whether an opcode is unused does not hang on the bytes after it. -/
theorem isUnused_decodeOp_congr (v : Config.Variant) (b1 b2 b3 c2 c3 : Byte) :
    (decodeOp v b1 b2 b3).isUnused = (decodeOp v b1 c2 c3).isUnused := by
  rw [Bool.eq_iff_iff]
  cases v with
  | i8080 => rw [Encoding.isUnused_i8080_iff, Encoding.isUnused_i8080_iff]
  | i8085 => rw [Encoding.isUnused_i8085_iff, Encoding.isUnused_i8085_iff]

/-- Settles O20: what a step runs is decoded, so it is well-formed, and it has the opcode it was decoded from. -/
theorem stepsStopOnlyAtUnusedOpcodes : Obligations.StepsStopOnlyAtUnusedOpcodes := by
  intro s
  rcases step_kind s with ⟨r, haccepted⟩ | ⟨haccepted, hhalted⟩ | ⟨i, f, hstarts⟩
  · rw [step_of_restart haccepted]
    exact ⟨nofun, nofun⟩
  · rw [step_of_halted s haccepted hhalted]
    exact ⟨nofun, nofun⟩
  · obtain ⟨b1, b2, b3, hi⟩ := hstarts.decoded
    have hcfg := hstarts.cfg_eq
    rw [step_of_starts hstarts]
    cases hexec : exec i f with
    | next u => exact ⟨nofun, nofun⟩
    | refused r => exact absurd hexec (exec_ne_refused i f r)
    | fault r =>
      have hwf : i.wellFormed f.cfg.variant = true := by
        rw [hi, hcfg]
        exact RoundTrip.wellFormed_decodeOp _ _ _ _
      obtain ⟨hpolicy, hunused, b, hhead, rfl⟩ := exec_fault hwf hexec
      rw [hcfg] at hpolicy
      rw [hi, Encoding.head_encode_decodeOp] at hhead
      obtain rfl := Option.some.inj hhead
      refine ⟨nofun, ?_⟩
      rintro _ ⟨⟩
      refine ⟨hpolicy, b1, rfl, ?_⟩
      rw [isUnused_decodeOp_congr _ _ _ _ b2 b3, ← hi, hunused]

end

end Sys2Proof.Steps
end

section
/-! The legal states (Safety.lean): what the sampling needs to leave a legal state, that every effect of an instruction
keeps it, and from these that every step keeps a legal state legal. -/

namespace Sys2Proof.Legality

open Sys2Proof.Machine
open Sys2Proof.Writers
open Sys2Proof.Steps

section

variable {s t : State} {i : Instr}

theorem legal_iff : s.legal = true ↔
    s.mem.wf = true ∧ s.eiPending ≤ s.cfg.eiDelay.count ∧ (s.inte = true ∨ s.eiPending = 0) ∧ s.inteLate = false ∧
      s.entryLegal = true ∧ resetStateLegal s.cfg = true := by
  simp only [State.legal, Bool.and_eq_true, Bool.or_eq_true, decide_eq_true_eq, Bool.not_eq_true', and_assoc]

/-- Settles O18: the reset state has empty memory, no delay and no acceptance, and so has the default `RESET_STATE`. -/
theorem resetIsLegal : Obligations.ResetIsLegal := rfl

/-- What a sampling needs to leave a legal state: all that is legal, but `DI`'s own end may still see the enable, and
nothing is accepted yet. -/
structure ReadyToSample (s : State) : Prop where
  memory : s.mem.wf = true
  delay : s.eiPending ≤ s.cfg.eiDelay.count
  enabled : s.inte = true ∨ s.eiPending = 0
  nothingAccepted : s.accepted = none
  resetState : resetStateLegal s.cfg = true

theorem readyToSample_of_legal (h : s.legal = true) (haccepted : s.accepted = none) : ReadyToSample s := by
  obtain ⟨hmem, hdelay, hon, -, -, hreset⟩ := legal_iff.mp h
  exact ⟨hmem, hdelay, hon, haccepted, hreset⟩

/-- Without a delay, and with interrupts on or off, a state is ready as far as its memory and parameters are. -/
theorem readyToSample_of_no_delay (hmem : s.mem.wf = true) (hdelay : s.eiPending = 0) (haccepted : s.accepted = none)
    (hreset : resetStateLegal s.cfg = true) : ReadyToSample s :=
  ⟨hmem, hdelay ▸ Nat.zero_le _, .inr hdelay, haccepted, hreset⟩

theorem ReadyToSample.congr (h : ReadyToSample s) (hmem : t.mem = s.mem) (hdelay : t.eiPending = s.eiPending)
    (hinte : t.inte = s.inte) (haccepted : t.accepted = s.accepted) (hcfg : t.cfg = s.cfg) : ReadyToSample t :=
  ⟨hmem ▸ h.memory, hdelay ▸ hcfg ▸ h.delay, hdelay ▸ hinte ▸ h.enabled, haccepted.trans h.nothingAccepted,
    hcfg ▸ h.resetState⟩

theorem ReadyToSample.effect (h : ReadyToSample s) (heffect : Effect i s t) : ReadyToSample t := by
  cases heffect with
  | write a v _ =>
    exact ⟨s.memWrite_wf a v h.memory, by simpa using h.delay, by simpa using h.enabled,
      by simpa using h.nothingAccepted, by simpa using h.resetState⟩
  | enable on late n _ hdelay hon => exact ⟨h.memory, hdelay, hon, h.nothingAccepted, h.resetState⟩
  | _ => exact h.congr (by simp) (by simp) (by simp) (by simp) (by simp)

theorem ReadyToSample.exec (h : ReadyToSample s) (hexec : exec i s = .next t) : ReadyToSample t :=
  exec_lift (r := fun a b => ReadyToSample a → ReadyToSample b) (fun _ => id) (fun hab hbc => hbc ∘ hab)
    (fun heffect ha => ha.effect heffect) hexec h

/-! ### The sampling leaves a legal state -/

/-- A maskable request is one that the variant has. -/
theorem entryLegal_of_maskableRequest {x : Slot} {e : Entry} (h : s.maskableRequest x = some e)
    (hdelay : s.eiPending = 0) : (s.setAccepted (some e)).entryLegal = true := by
  cases hv : s.cfg.variant with
  | i8080 =>
    rw [Sampling.maskableRequest_i8080 s x hv] at h
    split at h <;> cases h
    simp [State.entryLegal, hdelay]
  | i8085 =>
    rw [Sampling.maskableRequest_i8085 s x hv] at h
    repeat' split at h
    all_goals cases h
    all_goals simp [State.entryLegal, hdelay, hv]

/-- What the decision leaves is legal once `DI`'s own end is over. -/
theorem ReadyToSample.decideEntry (h : ReadyToSample s) (x : Slot) : (s.decideEntry x).endLate.legal = true := by
  obtain ⟨hmem, hdelay, hon, haccepted, hreset⟩ := h
  rw [legal_iff]
  rcases s.decideEntry_cases x with ⟨htrap, heq⟩ | ⟨-, hpos, heq⟩ | ⟨-, hzero, -, e, hreq, heq⟩ | ⟨-, -, -, heq⟩
  · have hv : s.cfg.variant = .i8085 := by
      by_contra hv
      rw [Sampling.trapRequest_eq_false s x (absurd · hv)] at htrap
      cases htrap
    rw [heq]
    exact ⟨hmem, hdelay, hon, rfl, decide_eq_true hv, hreset⟩
  · rw [heq]
    have hinte : s.inte = true := hon.resolve_right (Nat.ne_of_gt hpos)
    exact ⟨hmem, (Nat.sub_le _ _).trans hdelay, .inl hinte, rfl, by simp [State.entryLegal, haccepted], hreset⟩
  · rw [heq]
    exact ⟨hmem, hdelay, hon, rfl, entryLegal_of_maskableRequest hreq hzero, hreset⟩
  · rw [heq]
    exact ⟨hmem, hdelay, hon, rfl, by simp [State.entryLegal, haccepted], hreset⟩

theorem ReadyToSample.sample (h : ReadyToSample s) : s.sample.legal = true := by
  cases hreset : s.nextSlot.reset with
  | true =>
    obtain ⟨hdelay, hon⟩ : s.cfg.resetState.eiPending ≤ s.cfg.eiDelay.count ∧
        (s.cfg.resetState.inte = true ∨ s.cfg.resetState.eiPending = 0) := by
      simpa [resetStateLegal] using h.resetState
    rw [Sampling.resetInputAssigns s hreset, legal_iff]
    exact ⟨h.memory, hdelay, hon, rfl, rfl, h.resetState⟩
  | false =>
    have hlatched : ReadyToSample (s.dropSlot.latchEdge s.nextSlot) :=
      h.congr (by simp) (by simp) (by simp) (by simp) (by simp)
    rw [Sampling.sample_of_no_reset s hreset]
    exact hlatched.decideEntry s.nextSlot

/-! ### Every step -/

/-- An instruction starts from a state that is ready: the entry takes the acceptance away, and there is none at a
fetch. -/
theorem ReadyToSample.of_starts {f : State} (h : s.legal = true) (hstarts : Starts s i f) : ReadyToSample f := by
  rcases hstarts with ⟨b1, b2, b3, -, -, rfl⟩ | ⟨haccepted, -, -, rfl⟩
  · obtain ⟨hmem, -, -, -, -, hreset⟩ := legal_iff.mp h
    exact readyToSample_of_no_delay hmem rfl rfl hreset
  · have hready := readyToSample_of_legal h haccepted
    rw [s.fetch_frame.1]
    exact hready.congr rfl rfl rfl rfl rfl

/-- Settles O17: an internal restart leaves no delay and no acceptance; every other step ends in a sampling. -/
theorem stepKeepsLegal : Obligations.StepKeepsLegal := by
  intro s t hlegal h
  rcases step_next_cases h with ⟨r, -, rfl⟩ | ⟨haccepted, -, rfl⟩ | ⟨i, f, u, hstarts, hu, rfl⟩
  · obtain ⟨hmem, -, -, -, -, hreset⟩ := legal_iff.mp hlegal
    exact legal_iff.mpr ⟨s.takeRestart_wf r hmem, by simp, by simp, by simp, by simp [State.entryLegal],
      by simpa using hreset⟩
  · exact (readyToSample_of_legal hlegal haccepted).sample
  · have hready : ReadyToSample u := (ReadyToSample.of_starts hlegal hstarts).exec hu
    exact ReadyToSample.sample (hready.congr rfl rfl rfl rfl rfl)

end

end Sys2Proof.Legality
end

section
/-! What one step does in each kind of state (00_scope.md R13, 60_exceptions.md R264 to R266, R270, R275): the bytes
that the fetch reads, the halted step, the entry with a supplied instruction, the internal restart, the delay of `EI`. -/

namespace Sys2Proof.StepForms

open Sys2Proof.Machine
open Sys2Proof.Writers
open Sys2Proof.Steps
open Sys2Proof.HaltAndNop (step_of_halted sample_halted sample_env)
open Sys2Proof.Sampling (sample_inte sample_eiPending sample_accepted_none sample_eiPending_le
  trapRequest_eq_false trapRequest_congr)

section

/-! ### The fetch (R13) -/

/-- The `k`-th memory read of a fetch, counted from 0: the byte and the state after it. -/
def fetchRead (s : State) : Nat → Byte × State
  | 0 => s.memRead s.pc
  | k + 1 => (fetchRead s k).2.memRead (s.pc + BitVec.ofNat 16 (k + 1))

variable (s : State)

theorem memRead_env_only (a : Word) : (s.memRead a).2 = { s with env := (s.memRead a).2.env } := by
  apply State.ext <;> simp

/-- A memory read does not see `PC`. -/
theorem memRead_setPc (a w : Word) : (s.setPc w).memRead a = ((s.memRead a).1, (s.memRead a).2.setPc w) := by
  have hkind : (s.setPc w).kindAt a = s.kindAt a := rfl
  simp only [State.memRead, hkind]
  cases s.kindAt a <;> rfl

theorem fetchByte_setPc (w : Word) :
    (s.setPc w).fetchByte = ((s.memRead w).1, (s.memRead w).2.setPc (w + 1#16)) := by
  simp only [State.fetchByte, State.setPc_pc, memRead_setPc]
  rfl

theorem fetchRead_env_only (k : Nat) : (fetchRead s k).2 = { s with env := (fetchRead s k).2.env } := by
  induction k with
  | zero => exact memRead_env_only s s.pc
  | succ k ih =>
    rw [fetchRead, memRead_env_only, ih]

theorem fetchRead_setPc (k : Nat) (w : Word) :
    (fetchRead s k).2.setPc w = { s with pc := w, env := (fetchRead s k).2.env } := by
  rw [fetchRead_env_only]
  rfl

/-- The next instruction byte once the bytes up to the `k`-th are read. -/
theorem fetchByte_succ (k : Nat) :
    ((fetchRead s k).2.setPc (s.pc + BitVec.ofNat 16 (k + 1))).fetchByte =
      ((fetchRead s (k + 1)).1, (fetchRead s (k + 1)).2.setPc (s.pc + BitVec.ofNat 16 (k + 2))) := by
  have hpc : s.pc + BitVec.ofNat 16 (k + 1) + 1#16 = s.pc + BitVec.ofNat 16 (k + 2) := by
    rw [BitVec.add_assoc, ← BitVec.ofNat_add]
  rw [fetchByte_setPc, hpc]
  rfl

/-- The fetch reads as many bytes as the opcode says and leaves `PC` past them. -/
theorem fetch_eq {n : Nat} (hlen : opLength (fetchRead s 0).1 = n + 1) :
    s.fetch = (decodeOp s.cfg.variant (fetchRead s 0).1 (if 1 ≤ n then (fetchRead s 1).1 else 0#8)
        (if 2 ≤ n then (fetchRead s 2).1 else 0#8),
      { s with pc := s.pc + BitVec.ofNat 16 (n + 1), env := (fetchRead s n).2.env }) := by
  have h0 : s.fetchByte = ((fetchRead s 0).1, (fetchRead s 0).2.setPc (s.pc + 1#16)) := rfl
  have h1 : ((fetchRead s 0).2.setPc (s.pc + 1#16)).fetchByte =
      ((fetchRead s 1).1, (fetchRead s 1).2.setPc (s.pc + 2#16)) := fetchByte_succ s 0
  have h2 : ((fetchRead s 1).2.setPc (s.pc + 2#16)).fetchByte =
      ((fetchRead s 2).1, (fetchRead s 2).2.setPc (s.pc + 3#16)) := fetchByte_succ s 1
  have hn : n = 0 ∨ n = 1 ∨ n = 2 := by
    have := opLength_cases (fetchRead s 0).1
    omega
  simp only [State.fetch, h0, hlen, h1, h2]
  rcases hn with rfl | rfl | rfl <;> exact Prod.ext rfl (fetchRead_setPc s _ _)

/-- Bytes that RAM or ROM holds are read without any change. -/
theorem fetchRead_plain (k : Nat) (h : ∀ j ≤ k, s.kindAt (s.pc + BitVec.ofNat 16 j) = .ram ∨
    s.kindAt (s.pc + BitVec.ofNat 16 j) = .rom) :
    fetchRead s k = (s.byteAt (s.pc + BitVec.ofNat 16 k), s) := by
  induction k with
  | zero =>
    have h0 := h 0 le_rfl
    simp only [BitVec.add_zero] at h0 ⊢
    exact s.memRead_plain s.pc h0
  | succ k ih =>
    rw [fetchRead, ih fun j hj => h j (hj.trans (Nat.le_succ k))]
    exact s.memRead_plain _ (h (k + 1) le_rfl)

/-! ### The instruction that a step runs -/

/-- What decodes is decoded from as many bytes as it is long. -/
theorem decode_three_eq {v : Config.Variant} {b1 b2 b3 : Byte} {i : Instr} {rest : List Byte}
    (h : decode v [b1, b2, b3] = .ok (i, rest)) :
    ∃ n, opLength b1 = n + 1 ∧ (encode i).length = n + 1 ∧
      i = decodeOp v b1 (if 1 ≤ n then b2 else 0#8) (if 2 ≤ n then b3 else 0#8) := by
  rcases opLength_cases b1 with hlen | hlen | hlen <;> simp only [decode, hlen] at h <;> cases h
  · exact ⟨0, hlen, (Encoding.length_encode_decodeOp _ _ _ _).trans hlen, rfl⟩
  · exact ⟨1, hlen, (Encoding.length_encode_decodeOp _ _ _ _).trans hlen, rfl⟩
  · exact ⟨2, hlen, (Encoding.length_encode_decodeOp _ _ _ _).trans hlen, rfl⟩

variable {s}

/-- A machine that fetches runs what decodes from the bytes read, as far as they count, with `PC` past them. -/
theorem stepRuns_of_decode {i : Instr} {rest : List Byte} {b2 b3 : Byte} (haccepted : s.accepted = none)
    (hhalted : s.halted = false) (hdec : decode s.cfg.variant [(fetchRead s 0).1, b2, b3] = .ok (i, rest))
    (hb2 : 1 < (encode i).length → b2 = (fetchRead s 1).1) (hb3 : 2 < (encode i).length → b3 = (fetchRead s 2).1) :
    StepRuns s i { s with
      pc := s.pc + BitVec.ofNat 16 (encode i).length
      env := (fetchRead s ((encode i).length - 1)).2.env } := by
  obtain ⟨n, hop, hlen, hi⟩ := decode_three_eq hdec
  have hb2' : 1 ≤ n → b2 = (fetchRead s 1).1 := fun hn => hb2 (by omega)
  have hb3' : 2 ≤ n → b3 = (fetchRead s 2).1 := fun hn => hb3 (by omega)
  rw [ite_congr rfl hb2' fun _ => rfl, ite_congr rfl hb3' fun _ => rfl] at hi
  have hfetch := fetch_eq s hop
  rw [← hi] at hfetch
  rw [hlen]
  exact stepRuns_of_starts (.inr ⟨haccepted, hhalted, (congrArg Prod.fst hfetch).symm, (congrArg Prod.snd hfetch).symm⟩)

/-- Settles O7: from RAM or ROM the bytes read are those that stand there; elsewhere each byte has its read. -/
theorem stepRunsDecodedInstruction : Obligations.StepRunsDecodedInstruction := by
  intro s i rest haccepted hhalted past
  refine ⟨fun hplain hdec => ?_, fun hdec => ?_⟩
  · have hread (k : Nat) (hk : k < (encode i).length) :
        fetchRead s k = (s.byteAt (s.pc + BitVec.ofNat 16 k), s) :=
      fetchRead_plain s k fun j hj => hplain j (hj.trans_lt hk)
    obtain ⟨n, -, hlen, -⟩ := decode_three_eq hdec
    have h0 := hread 0 (by omega)
    have hlast := hread ((encode i).length - 1) (by omega)
    simp only [BitVec.add_zero] at h0
    have hruns := stepRuns_of_decode haccepted hhalted (by rwa [h0])
      (fun h => (congrArg Prod.fst (hread 1 h)).symm) (fun h => (congrArg Prod.fst (hread 2 h)).symm)
    rwa [hlast] at hruns
  · have hruns := stepRuns_of_decode haccepted hhalted hdec (fun _ => rfl) (fun _ => rfl)
    refine ⟨fun hlen => ?_, fun hlen => ?_, fun hlen => ?_⟩ <;>
      (simp only [past, hlen] at hruns ⊢; exact hruns)

/-! ### The halted step and the entries -/

/-- Settles O8: the halted step is the sampling. -/
theorem haltedStepOnlySamples : Obligations.HaltedStepOnlySamples := by
  intro s haccepted hhalted
  refine ⟨s.sample, step_of_halted s haccepted hhalted, rfl, s.sample_regs, s.sample_flags, s.sample_sp, s.sample_mem,
    s.sample_clk, s.sample_cfg, fun hreset => ?_⟩
  exact ⟨s.sample_pc hreset, (sample_halted s hreset).trans hhalted, sample_inte s hreset, sample_env s hreset⟩

/-- Settles O10: the entry, and a call of the vector. -/
theorem internalRestartEntry : Obligations.InternalRestartEntry := by
  intro s r haccepted
  refine ⟨_, step_of_restart haccepted, ?_⟩
  rw [takeRestart_eq]
  have hstored := State.pushPc_setPc_stored
    (s.enterInterrupt.setMasks { s.masks with r75 := s.masks.r75 && decide (r ≠ .rst75) }) (restartVector r)
  cases r <;> exact hstored

/-- The bytes after a call that starts in `s`: the high byte of `PC` below `SP`, the low byte below it. -/
theorem callTo_byteAt (s : State) (w x : Word) :
    (s.callTo w).byteAt x =
      if s.kindAt x = .ram ∧ x = s.sp - 1#16 then hiByte s.pc
      else if s.kindAt x = .ram ∧ x = s.sp - 2#16 then loByte s.pc else s.byteAt x := by
  obtain ⟨-, -, hbytes⟩ := s.pushPc_setPc_stored w
  have hne : s.sp - 1#16 ≠ s.sp - 2#16 := by bv_omega
  refine (hbytes x).trans ?_
  simp only [List.foldl_cons, List.foldl_nil, and_comm (a := x = _)]
  by_cases hx : x = s.sp - 1#16
  · simp only [hx, hne, and_false, and_true, if_false]
    rfl
  · simp only [hx, and_false, if_false]
    rfl

/-- Settles O9: the supplied instruction runs from the state after the entry; `RST n` is a call there. -/
theorem suppliedInstructionEntry : Obligations.SuppliedInstructionEntry := by
  intro s b1 b2 b3 haccepted i e
  have hruns : StepRuns s i e := stepRuns_of_starts (.inl ⟨b1, b2, b3, haccepted, rfl, rfl⟩)
  refine ⟨hruns, ?_⟩
  rintro n rfl hreset
  have hexec : exec i e = .next (e.callTo (rstTarget n)) := by
    simp only [i, RoundTrip.decodeOp_rstOpcode]
    rfl
  have hslots : (e.callTo (rstTarget n)).env.slots = e.env.slots := exec_slots (i := .rst n) rfl
  let u : State := (e.callTo (rstTarget n)).setClk ((e.callTo (rstTarget n)).clk + clocks i e)
  have hreset' : u.nextSlot.reset = false := by
    have hslot : u.nextSlot = s.nextSlot := by simp only [State.nextSlot, u, State.setClk_env, hslots, e]
    rw [hslot, hreset]
  refine ⟨u.sample, hruns.1 _ hexec, ?_, ?_, ?_, ?_, ?_, ?_, ?_, fun x => ?_⟩
  · rw [u.sample_pc hreset']
    exact ControlTransfer.toNat_rstTarget n
  · exact u.sample_sp
  · rw [sample_inte u hreset']
    simp [u, State.callTo, e]
  · exact Nat.le_zero.mp ((sample_eiPending_le u hreset').trans (by simp [u, State.callTo, e]))
  · rw [sample_halted u hreset']
    simp [u, State.callTo, e]
  · simp [u, State.callTo, e]
  · simp [u, State.callTo, e]
  · rw [State.byteAt_congr u _ u.sample_mem]
    exact callTo_byteAt e (rstTarget n) x

/-! ### The delay of `EI` (R266) -/

theorem eiDelay_count_pos (d : Config.EiDelay) : 0 < d.count := by
  cases d <;> decide

/-- `EI` sets `INTE` and starts the delay (46_interrupt_and_other.md R230). -/
theorem exec_ei (s : State) : exec .ei s = .next (s.setEnable true s.inteLate s.cfg.eiDelay.count) := rfl

/-- While the delay runs, what an instruction leaves is blocked at its end: by the delay still, or by `DI`, at whose own
end a running delay is not seen. -/
theorem exec_blocked {s t : State} {i : Instr} (hdelay : 0 < s.eiPending) (h : exec i s = .next t) :
    0 < t.eiPending ∨ t.enabled = false := by
  by_cases hei : i = .ei
  · subst hei
    cases h
    exact .inl (eiDelay_count_pos s.cfg.eiDelay)
  · by_cases hdi : i = .di
    · subst hdi
      cases h
      exact .inr (by simp [State.enabled, Nat.ne_of_gt hdelay])
    · obtain ⟨-, -, heq⟩ := exec_enable hei hdi h
      exact .inl (heq ▸ hdelay)

/-- A fetched instruction ends with the slot that the step began with, and nothing accepted. -/
theorem retire_frame {s u : State} (h : exec s.fetch.1 s.fetch.2 = .next u) :
    u.nextSlot = s.nextSlot ∧ u.accepted = s.accepted ∧ u.cfg = s.cfg := by
  obtain ⟨hframe, hslots, -⟩ := s.fetch_frame
  have haccepted : s.fetch.2.accepted = s.accepted := by rw [hframe]
  have hcfg : s.fetch.2.cfg = s.cfg := by rw [hframe]
  exact ⟨by simp only [State.nextSlot, exec_slots h, hslots],
    (exec_accepted h).trans haccepted, (exec_cfg h).trans hcfg⟩

/-- Settles O13: the delay that runs before the sampling, or that `EI` starts, blocks what is no `TRAP`. -/
theorem enableIsDelayed : Obligations.EnableIsDelayed := by
  intro s t haccepted hreset htrap h
  have hnotrap := trapRequest_eq_false s s.nextSlot htrap
  rcases step_next_cases h with ⟨r, hrestart, -⟩ | ⟨-, hhalted, rfl⟩ | ⟨i, f, u, hstarts, hu, rfl⟩
  · rw [haccepted] at hrestart
    cases hrestart
  · exact ⟨fun hdelay => sample_accepted_none s hreset haccepted hnotrap (.inl hdelay),
      fun hrunning => by simp [hhalted] at hrunning⟩
  · obtain ⟨-, -, rfl, rfl⟩ : s.accepted = none ∧ s.halted = false ∧ i = s.fetch.1 ∧ f = s.fetch.2 := by
      simpa [Starts, haccepted] using hstarts
    obtain ⟨hslot, hacc, hcfg⟩ := retire_frame hu
    let w : State := u.setClk (u.clk + clocks s.fetch.1 s.fetch.2)
    have hreset' : w.nextSlot.reset = false := (congrArg Slot.reset hslot).trans hreset
    have haccepted' : w.accepted = none := hacc.trans haccepted
    have hnotrap' : w.trapRequest w.nextSlot = false := by
      have hslot' : w.nextSlot = s.nextSlot := hslot
      rw [hslot', trapRequest_congr (t := w) s _ hcfg, hnotrap]
    refine ⟨fun hdelay => ?_, fun _ hei => ?_⟩
    · have hdelay' : 0 < s.fetch.2.eiPending := by
        rw [s.fetch_frame.1]
        exact hdelay
      exact sample_accepted_none w hreset' haccepted' hnotrap' (exec_blocked (t := u) hdelay' hu)
    · rw [hei, exec_ei] at hu
      obtain rfl := Host.Outcome.next.inj hu
      have hdelay' : w.eiPending = s.cfg.eiDelay.count := by
        simp only [w, State.setClk_eiPending, ← hcfg]
        rfl
      have hpos := eiDelay_count_pos s.cfg.eiDelay
      refine ⟨sample_accepted_none w hreset' haccepted' hnotrap' (.inl ?_), ?_, ?_⟩
      · rw [hdelay']
        exact hpos
      · exact sample_inte w hreset'
      · rw [sample_eiPending w hreset' haccepted' hnotrap', hdelay']
        omega

end

end Sys2Proof.StepForms
end

section
/-! The end of a run (00_scope.md R18, 60_exceptions.md R270): what a slot must show to end the halted state, how the
sampling changes that, and from these, by induction on the number of steps and on the slots, the statement. -/

namespace Sys2Proof.EndOfRun

open Sys2Proof.Machine
open Sys2Proof.Sampling
open Sys2Proof.HaltAndNop (step_of_halted sample_halted sample_env)

section

variable (s : State)

/-! ### The slot that ends the halted state -/

/-- RST 7.5 is latched and not masked, so that it is accepted as soon as interrupts are on and no delay runs. -/
def Waiting75 (s : State) : Prop := s.cfg.variant = .i8085 ∧ s.masks.r75 = true ∧ s.masks.m75 = false

theorem maskableRequest_i8085_eq_none_iff (x : Slot) (hv : s.cfg.variant = .i8085) :
    s.maskableRequest x = none ↔ ¬(s.masks.r75 = true ∧ s.masks.m75 = false) ∧ ¬(x.req65 = true ∧ s.masks.m65 = false) ∧
      ¬(x.req55 = true ∧ s.masks.m55 = false) ∧ ¬ x.intr = true := by
  rw [maskableRequest_i8085 s x hv]
  simp only [ite_eq_right_iff, ite_eq_iff, reduceCtorEq, and_false, false_or, imp_false]

/-- A slot keeps the halted state if it shows no RESET and no `TRAP` and, where interrupts are on, neither leaves
RST 7.5 waiting nor, with no delay running, makes a request. -/
theorem slotKeepsHalt_iff (delay : Nat) (x : Slot) :
    s.slotKeepsHalt delay x = true ↔ x.reset = false ∧ s.trapRequest x = false ∧ (s.inte = true →
      ¬ Waiting75 (s.latchEdge x) ∧ (delay = 0 → (s.latchEdge x).maskableRequest x = none)) := by
  cases hv : s.cfg.variant with
  | i8080 =>
    rw [latchEdge_i8080 s x hv, maskableRequest_i8080 s x hv]
    cases hinte : s.inte <;> cases hintr : x.intr <;> simp [State.slotKeepsHalt, Waiting75, hv, hinte, hintr, and_assoc,
      Nat.pos_iff_ne_zero]
  | i8085 =>
    have hv' : (s.latchEdge x).cfg.variant = .i8085 := by simpa using hv
    rw [maskableRequest_i8085_eq_none_iff _ x hv', latchEdge_i8085 s x hv]
    simp only [State.slotKeepsHalt, Waiting75, hv, Bool.and_eq_true, Bool.or_eq_true, Bool.not_eq_true',
      decide_eq_true_eq, State.setMasks_cfg, State.setMasks_masks]
    grind

/-! ### The sampling of a machine that has accepted nothing -/

theorem maskableRequest_congr {t : State} (x : Slot) (hcfg : t.cfg = s.cfg) (hmasks : t.masks = s.masks) :
    t.maskableRequest x = s.maskableRequest x := by
  simp only [State.maskableRequest, hcfg, hmasks]

/-- The slot taken off the script does not change what an edge does to the latch. -/
theorem dropSlot_latchEdge_masks (x : Slot) : (s.dropSlot.latchEdge x).masks = (s.latchEdge x).masks := by
  cases hv : s.cfg.variant with
  | i8080 =>
    rw [latchEdge_i8080 s x hv, latchEdge_i8080 s.dropSlot x hv]
    rfl
  | i8085 =>
    rw [latchEdge_i8085 s x hv, latchEdge_i8085 s.dropSlot x hv]
    rfl

theorem sample_masks (hreset : s.nextSlot.reset = false) : s.sample.masks = (s.latchEdge s.nextSlot).masks := by
  rw [sample_of_no_reset s hreset, State.endLate_masks, State.decideEntry_masks, dropSlot_latchEdge_masks]

theorem sample_accepted_of_trap (hreset : s.nextSlot.reset = false) (haccepted : s.accepted = none)
    (htrap : s.trapRequest s.nextSlot = true) : s.sample.accepted = some (.restart .trap) := by
  rw [sample_eq s hreset haccepted rfl ((trapRequest_congr s _ (by simp)).trans htrap) rfl]
  rfl

/-- With interrupts on, no delay and no `TRAP` the request that is shown or latched is accepted. -/
theorem sample_accepted_of_enabled (hreset : s.nextSlot.reset = false) (haccepted : s.accepted = none)
    (htrap : s.trapRequest s.nextSlot = false) (hdelay : s.eiPending = 0) (hinte : s.inte = true) :
    s.sample.accepted = (s.latchEdge s.nextSlot).maskableRequest s.nextSlot := by
  have hrequest := maskableRequest_congr (s.latchEdge s.nextSlot) (t := s.dropSlot.latchEdge s.nextSlot) s.nextSlot
    (by simp) (dropSlot_latchEdge_masks s _)
  rw [sample_eq s hreset haccepted rfl ((trapRequest_congr s _ (by simp)).trans htrap) hrequest]
  simp [hdelay, hinte]

/-- A slot that keeps the halted state makes the sampling accept nothing. -/
theorem sample_accepted_of_slotKeepsHalt (hkeeps : s.slotKeepsHalt s.eiPending s.nextSlot = true)
    (haccepted : s.accepted = none) (hlate : s.inteLate = false) : s.sample.accepted = none := by
  obtain ⟨hreset, htrap, hrequest⟩ := (slotKeepsHalt_iff s _ _).mp hkeeps
  rcases Nat.eq_zero_or_pos s.eiPending with hdelay | hdelay
  · cases hinte : s.inte with
    | false => exact sample_accepted_none s hreset haccepted htrap (.inr (by simp [State.enabled, hinte, hlate]))
    | true =>
      rw [sample_accepted_of_enabled s hreset haccepted htrap hdelay hinte]
      exact (hrequest hinte).2 hdelay
  · exact sample_accepted_none s hreset haccepted htrap (.inl hdelay)

/-- RST 7.5 latched and not masked is a request, whatever the slot shows. -/
theorem maskableRequest_of_waiting75 (x : Slot) (h : Waiting75 s) : s.maskableRequest x = some (.restart .rst75) := by
  obtain ⟨hv, hlatched, hmask⟩ := h
  rw [maskableRequest_i8085 s x hv, if_pos ⟨hlatched, hmask⟩]

/-- An edge leaves waiting what waits. -/
theorem Waiting75.latchEdge {s : State} (h : Waiting75 s) (x : Slot) : Waiting75 (s.latchEdge x) := by
  obtain ⟨hv, hlatched, hmask⟩ := h
  rw [latchEdge_i8085 s x hv]
  exact ⟨hv, by simp [hlatched], hmask⟩

theorem Waiting75.sample {s : State} (hreset : s.nextSlot.reset = false) (h : Waiting75 (s.latchEdge s.nextSlot)) :
    Waiting75 s.sample := by
  obtain ⟨hv, hlatched, hmask⟩ := h
  rw [State.latchEdge_cfg] at hv
  exact ⟨(congrArg (·.variant) s.sample_cfg).trans hv, by rwa [sample_masks s hreset], by rwa [sample_masks s hreset]⟩

/-- A slot without RESET that does not keep the halted state has something accepted, or leaves RST 7.5 waiting for the
end of the delay of `EI`. -/
theorem sample_of_not_slotKeepsHalt (hkeeps : s.slotKeepsHalt s.eiPending s.nextSlot = false)
    (hreset : s.nextSlot.reset = false) (haccepted : s.accepted = none) :
    s.sample.accepted ≠ none ∨ s.inte = true ∧ Waiting75 s.sample := by
  cases htrap : s.trapRequest s.nextSlot with
  | true =>
    left
    simp [sample_accepted_of_trap s hreset haccepted htrap]
  | false =>
    by_contra hcon
    push Not at hcon
    obtain ⟨hnone, hwaiting⟩ := hcon
    have hkeeps' : s.slotKeepsHalt s.eiPending s.nextSlot = true := by
      refine (slotKeepsHalt_iff s _ _).mpr ⟨hreset, htrap, fun hinte => ⟨fun h => ?_, fun hdelay => ?_⟩⟩
      · exact hwaiting hinte (h.sample hreset)
      · rw [← sample_accepted_of_enabled s hreset haccepted htrap hdelay hinte, hnone]
    simp [hkeeps'] at hkeeps

/-! ### What is left of the slots after a sampling -/

/-- A sampling that keeps the halted state changes the latch of RST 7.5 only where it does not matter: masked, or with
interrupts off. -/
theorem slotKeepsHalt_congr {t : State} {x : Slot} (hwaiting : s.inte = true → ¬ Waiting75 (s.latchEdge x))
    (hcfg : t.cfg = s.cfg) (hinte : t.inte = s.inte) (hmasks : t.masks = (s.latchEdge x).masks) (delay : Nat)
    (y : Slot) : t.slotKeepsHalt delay y = s.slotKeepsHalt delay y := by
  cases hv : s.cfg.variant with
  | i8080 =>
    rw [latchEdge_i8080 s x hv] at hmasks
    simp only [State.slotKeepsHalt, State.trapRequest, hcfg, hinte, hmasks]
  | i8085 =>
    rw [latchEdge_i8085 s x hv] at hmasks hwaiting
    simp only [State.slotKeepsHalt, State.trapRequest, hcfg, hinte, hmasks, hv]
    cases hon : s.inte with
    | false => rfl
    | true =>
      have hmasked : s.masks.m75 = true ∨ (s.masks.r75 || x.edge75) = false := by
        have hnot := hwaiting hon
        simp only [Waiting75, State.setMasks_cfg, State.setMasks_masks, hv, true_and] at hnot
        grind
      rcases hmasked with hmask | hlatch
      · simp [hmask]
      · simp_all

theorem slotsKeepHalt_congr {t : State} (h : ∀ delay y, t.slotKeepsHalt delay y = s.slotKeepsHalt delay y)
    (slots : List Slot) (delay : Nat) : t.slotsKeepHalt delay slots = s.slotsKeepHalt delay slots := by
  induction slots generalizing delay with
  | nil => exact h delay Slot.quiet
  | cons x rest ih => simp only [State.slotsKeepHalt, h, ih]

/-- The slot of the coming sampling and those after it; the source stays quiet once the script has ended. -/
theorem slotsKeepHalt_iff (delay : Nat) :
    s.slotsKeepHalt delay s.env.slots = true ↔
      s.slotKeepsHalt delay s.nextSlot = true ∧ s.slotsKeepHalt (delay - 1) s.env.slots.tail = true := by
  unfold State.nextSlot
  cases s.env.slots with
  | nil =>
    have hquiet : s.slotKeepsHalt (delay - 1) Slot.quiet = s.slotKeepsHalt delay Slot.quiet := by
      simp [State.slotKeepsHalt, Slot.quiet]
    simp only [State.slotsKeepHalt, List.tail_nil, hquiet, and_self]
  | cons x rest => simp only [State.slotsKeepHalt, List.tail_cons, Bool.and_eq_true]

theorem ended_iff : s.ended = true ↔ s.halted = true ∧ s.accepted = none ∧ s.inteLate = false ∧
    s.slotsKeepHalt s.eiPending s.env.slots = true := by
  simp only [State.ended, Bool.and_eq_true, Option.isNone_iff_eq_none, Bool.not_eq_true', and_assoc]

/-- After a slot that keeps the halted state, the slots to come are those without it. -/
theorem sample_slotsKeepHalt (hkeeps : s.slotKeepsHalt s.eiPending s.nextSlot = true) (haccepted : s.accepted = none) :
    s.sample.slotsKeepHalt s.sample.eiPending s.sample.env.slots =
      s.slotsKeepHalt (s.eiPending - 1) s.env.slots.tail := by
  obtain ⟨hreset, htrap, hrequest⟩ := (slotKeepsHalt_iff s _ _).mp hkeeps
  rw [sample_eiPending s hreset haccepted htrap, sample_env s hreset]
  exact slotsKeepHalt_congr s (slotKeepsHalt_congr s (fun hinte => (hrequest hinte).1) s.sample_cfg
    (sample_inte s hreset) (sample_masks s hreset)) _ _

/-! ### Runs -/

theorem run_succ {t : State} (h : step s = .next t) (n : Nat) :
    Sys2Proof.core.run (n + 1) s = Sys2Proof.core.run n t := by
  have hstep : Sys2Proof.core.step s = .next t := h
  simp only [Host.Core.run, hstep]

/-- At the end of a run one more step is a sampling, after which the run is at its end still. -/
theorem sample_of_ended (h : s.ended = true) :
    step s = .next s.sample ∧ s.sample.ended = true ∧ s.sample.pc = s.pc := by
  obtain ⟨hhalted, haccepted, hlate, hslots⟩ := (ended_iff s).mp h
  obtain ⟨hkeeps, hrest⟩ := (slotsKeepHalt_iff s _).mp hslots
  obtain ⟨hreset, -, -⟩ := (slotKeepsHalt_iff s _ _).mp hkeeps
  refine ⟨step_of_halted s haccepted hhalted, (ended_iff _).mpr ⟨?_, ?_, s.sample_inteLate, ?_⟩, s.sample_pc hreset⟩
  · exact (sample_halted s hreset).trans hhalted
  · exact sample_accepted_of_slotKeepsHalt s hkeeps haccepted hlate
  · exact (sample_slotsKeepHalt s hkeeps haccepted).trans hrest

variable {s}

/-- The end of a run stays it in any number of steps. -/
theorem run_of_ended (n : Nat) (h : s.ended = true) :
    ∃ t : State, Sys2Proof.core.run n s = .next t ∧ t.ended = true ∧ t.halted = true ∧ t.regs = s.regs ∧
      t.flags = s.flags ∧ t.sp = s.sp ∧ t.pc = s.pc ∧ t.mem = s.mem := by
  induction n generalizing s with
  | zero => exact ⟨s, rfl, h, ((ended_iff s).mp h).1, rfl, rfl, rfl, rfl, rfl⟩
  | succ n ih =>
    obtain ⟨hstep, hended, hpc⟩ := sample_of_ended s h
    obtain ⟨t, hrun, ht, hhalted, hregs, hflags, hsp, hpc', hmem⟩ := ih hended
    exact ⟨t, (run_succ s hstep n).trans hrun, ht, hhalted, hregs.trans s.sample_regs, hflags.trans s.sample_flags,
      hsp.trans s.sample_sp, hpc'.trans hpc, hmem.trans s.sample_mem⟩

/-- After some number of steps the machine is still halted and has accepted an interrupt. -/
def AcceptsLater (s : State) : Prop :=
  ∃ (n : Nat) (t : State), Sys2Proof.core.run n s = .next t ∧ t.accepted ≠ none ∧ t.halted = true

theorem AcceptsLater.of_step {t : State} (hstep : step s = .next t) (h : AcceptsLater t) : AcceptsLater s := by
  obtain ⟨n, u, hrun, hu⟩ := h
  exact ⟨n + 1, u, (run_succ s hstep n).trans hrun, hu⟩

theorem AcceptsLater.of_accepted (haccepted : s.accepted ≠ none) (hhalted : s.halted = true) : AcceptsLater s :=
  ⟨0, s, rfl, haccepted, hhalted⟩

/-- No slot of the script shows a RESET. -/
def NoReset (s : State) : Prop := ∀ x ∈ s.env.slots, x.reset = false

theorem NoReset.nextSlot (h : NoReset s) : s.nextSlot.reset = false := by
  unfold State.nextSlot
  split
  · rfl
  next x rest hslots => exact h x (by simp [hslots])

theorem NoReset.sample (h : NoReset s) : NoReset s.sample := by
  intro x hx
  rw [sample_env s h.nextSlot] at hx
  exact h x (List.mem_of_mem_tail hx)

theorem AcceptsLater.of_sample (hhalted : s.halted = true) (haccepted : s.accepted = none)
    (hreset : s.nextSlot.reset = false) (h : s.sample.accepted ≠ none) : AcceptsLater s :=
  .of_step (step_of_halted s haccepted hhalted) (.of_accepted h ((sample_halted s hreset).trans hhalted))

/-- With RST 7.5 waiting and interrupts on, the halted machine accepts it at the latest when the delay of `EI` is over:
by induction on the delay. -/
theorem acceptsLater_of_waiting75 {delay : Nat} (hdelay : s.eiPending = delay) (hhalted : s.halted = true)
    (haccepted : s.accepted = none) (hresets : NoReset s) (hinte : s.inte = true) (hwaiting : Waiting75 s) :
    AcceptsLater s := by
  induction delay generalizing s with
  | zero =>
    have hreset := hresets.nextSlot
    refine .of_sample hhalted haccepted hreset ?_
    cases htrap : s.trapRequest s.nextSlot with
    | true => simp [sample_accepted_of_trap s hreset haccepted htrap]
    | false =>
      rw [sample_accepted_of_enabled s hreset haccepted htrap hdelay hinte,
        maskableRequest_of_waiting75 _ _ (hwaiting.latchEdge _)]
      nofun
  | succ n ih =>
    have hreset := hresets.nextSlot
    cases htrap : s.trapRequest s.nextSlot with
    | true =>
      exact .of_sample hhalted haccepted hreset (by simp [sample_accepted_of_trap s hreset haccepted htrap])
    | false =>
      have hdelay' : s.sample.eiPending = n := by
        rw [sample_eiPending s hreset haccepted htrap, hdelay, Nat.add_sub_cancel]
      refine .of_step (step_of_halted s haccepted hhalted) (ih hdelay' ?_ ?_ hresets.sample ?_ ?_)
      · exact (sample_halted s hreset).trans hhalted
      · exact sample_accepted_none s hreset haccepted htrap (.inl (by omega))
      · exact (sample_inte s hreset).trans hinte
      · exact (hwaiting.latchEdge _).sample hreset

/-- A slot that does not keep the halted state makes the machine accept an interrupt, at its sampling or later. -/
theorem acceptsLater_of_not_slotKeepsHalt (hkeeps : s.slotKeepsHalt s.eiPending s.nextSlot = false)
    (hhalted : s.halted = true) (haccepted : s.accepted = none) (hresets : NoReset s) : AcceptsLater s := by
  have hreset := hresets.nextSlot
  by_cases hnone : s.sample.accepted = none
  · obtain ⟨hinte, hwaiting⟩ := (sample_of_not_slotKeepsHalt s hkeeps hreset haccepted).resolve_left (· hnone)
    exact .of_step (step_of_halted s haccepted hhalted) (acceptsLater_of_waiting75 rfl
      ((sample_halted s hreset).trans hhalted) hnone hresets.sample ((sample_inte s hreset).trans hinte) hwaiting)
  · exact .of_sample hhalted haccepted hreset hnone

/-- A halted machine that some interrupt can end accepts one: by induction on the slots, the first of which either ends
the halted state or leaves it to those after it. -/
theorem acceptsLater_of_not_slotsKeepHalt {slots : List Slot} (hslots : s.env.slots = slots)
    (hends : s.slotsKeepHalt s.eiPending s.env.slots = false) (hhalted : s.halted = true)
    (haccepted : s.accepted = none) (hlate : s.inteLate = false) (hresets : NoReset s) : AcceptsLater s := by
  induction slots generalizing s with
  | nil =>
    have hnext : s.nextSlot = Slot.quiet := by simp only [State.nextSlot, hslots]
    rw [hslots, State.slotsKeepHalt, ← hnext] at hends
    exact acceptsLater_of_not_slotKeepsHalt hends hhalted haccepted hresets
  | cons x rest ih =>
    cases hkeeps : s.slotKeepsHalt s.eiPending s.nextSlot with
    | false => exact acceptsLater_of_not_slotKeepsHalt hkeeps hhalted haccepted hresets
    | true =>
      have hreset := hresets.nextSlot
      have hends' : s.sample.slotsKeepHalt s.sample.eiPending s.sample.env.slots = false := by
        rw [sample_slotsKeepHalt s hkeeps haccepted, ← Bool.not_eq_true]
        intro hrest
        simp [(slotsKeepHalt_iff s _).mpr ⟨hkeeps, hrest⟩] at hends
      have hslots' : s.sample.env.slots = rest := by
        rw [sample_env s hreset, hslots]
        rfl
      exact .of_step (step_of_halted s haccepted hhalted) (ih hslots' hends' ((sample_halted s hreset).trans hhalted)
        (sample_accepted_of_slotKeepsHalt s hkeeps haccepted hlate) s.sample_inteLate hresets.sample)

end

/-- Settles O14: the end of a run is kept by every step; any other halted machine has a slot, or a latched RST 7.5, that
ends the halted state. -/
theorem endOfRunIsFinal : Obligations.EndOfRunIsFinal := by
  intro s
  refine ⟨fun hended n => run_of_ended n hended, fun hended hhalted haccepted hlate hresets => ?_⟩
  have hends : s.slotsKeepHalt s.eiPending s.env.slots = false := by
    rw [← Bool.not_eq_true]
    intro hslots
    simp [(ended_iff s).mpr ⟨hhalted, haccepted, hlate, hslots⟩] at hended
  exact acceptsLater_of_not_slotsKeepHalt rfl hends hhalted haccepted hlate hresets

end Sys2Proof.EndOfRun
end

section
/-! The memory cycles and the operand accessors (20_memory.md R50, R58, 00_scope.md R12, 10_state.md R21, R22). -/

namespace Sys2Proof.Cycles

open Sys2Proof.Machine
open Sys2Proof.DataTransfer (memWrite_stored)
open Sys2Proof.Arithmetic (writePair_eq writePair_a readPair_writePair_other)

theorem memRead_unpopulated (s : State) (a : Word) (h : s.kindAt a = .unpopulated) :
    s.memRead a = (Config.freeBusByte s.env.draws a, s.draw) := by
  simp only [State.memRead, h]

theorem memRead_device (s : State) (a : Word) (h : s.kindAt a = .device) :
    s.memRead a = (Config.freeBusByte s.env.draws a,
      s.draw.emit (.deviceRead a (Config.freeBusByte s.env.draws a))) := by
  simp only [State.memRead, h]

/-- Settles O27: the kind of the address decides what a read and a write do. -/
theorem memoryCycles : Obligations.MemoryCycles := by
  intro s a v
  refine ⟨s.memRead_plain a, fun h => ?_, fun h => ?_, memWrite_stored s a v⟩
  · rw [memRead_unpopulated s a h]
    rfl
  · rw [memRead_device s a h]
    rfl

/-- A pair as a number: the first-named register is the high byte. -/
theorem readPair_toNat (s : State) (p : RegPair) :
    (readPair p s).toNat = match p with
      | .bc => 256 * s.regs.b.toNat + s.regs.c.toNat
      | .de => 256 * s.regs.d.toNat + s.regs.e.toNat
      | .hl => 256 * s.regs.h.toNat + s.regs.l.toNat
      | .sp => s.sp.toNat := by
  cases p with
  | sp => rfl
  | bc | de | hl => exact toNat_le16 _ _

/-- Settles O28, from the rules of the accessors. -/
theorem operandAccess : Obligations.OperandAccess := by
  intro s r v p w
  refine ⟨?_, fun hr => ⟨writeReg_register r v s hr, readReg_writeReg_same r v s hr,
      fun q hq hne => readReg_writeReg_other r q v s hq hne⟩, writeReg_m v s, readPair_toNat s p,
    readPair_writePair p w s, fun q hne => readPair_writePair_other s w hne, writePair_eq s p w, writePair_a s p w,
    toNat_hiByte w, toNat_loByte w⟩
  cases r <;> rfl

end Sys2Proof.Cycles
end

section
/-! Subtractions, compares, `DAD` and `DAA` after an addition (41_arithmetic.md, 42_logical.md R168, R169). -/

namespace Sys2Proof.Differences

open Sys2Proof.Machine
open Sys2Proof.DataTransfer (keepsMemory_of_mem_eq)
open Sys2Proof.Arithmetic (readReg_accumulate accumulate_accumulatorOnly readReg_env_only exec_add exec_adi exec_adc
  exec_aci exec_daa)

section

variable (s : State)

/-! ### Subtractions and compares (R137 to R140, R168, R169) -/

theorem exec_sub (r : Reg) :
    exec (.sub r) s = .next ((readReg r s).2.accumulate (sub8 s.cfg s.regs.a (readReg r s).1 false)) := rfl

theorem exec_sui (v : Byte) : exec (.sui v) s = .next (s.accumulate (sub8 s.cfg s.regs.a v false)) := rfl

theorem exec_sbb (r : Reg) :
    exec (.sbb r) s = .next ((readReg r s).2.accumulate (sub8 s.cfg s.regs.a (readReg r s).1 s.flags.cy)) := rfl

theorem exec_sbi (v : Byte) : exec (.sbi v) s = .next (s.accumulate (sub8 s.cfg s.regs.a v s.flags.cy)) := rfl

theorem exec_cmp (r : Reg) :
    exec (.cmp r) s = .next ((readReg r s).2.setFlags (sub8 s.cfg s.regs.a (readReg r s).1 false).flags) := rfl

theorem exec_cpi (v : Byte) : exec (.cpi v) s = .next (s.setFlags (sub8 s.cfg s.regs.a v false).flags) := rfl

/-- Flags that are those of a difference say so, whatever is done with its result. -/
theorem differenceIn_of_flags {t : State} {v : Byte} {c : Bool} (h : t.flags = (sub8 s.cfg s.regs.a v c).flags) :
    DifferenceIn s t (sub8 s.cfg s.regs.a v c).res v c := by
  unfold DifferenceIn
  rw [h]
  exact ⟨sub8_toNat s.cfg _ _ _, sub8_cy s.cfg _ _ _, rfl, AluOut.flags_resultFlags _⟩

end

/-- Settles O38: the operand is read, which changes the environment at most, then the difference ends in `A`. -/
theorem subtractions : Obligations.Subtractions := by
  intro s r v
  exact ⟨⟨rfl, rfl, _, exec_sub s r, readReg_accumulate s r _, differenceIn_of_flags s rfl⟩,
    ⟨rfl, rfl, _, exec_sui s v, accumulate_accumulatorOnly rfl _, differenceIn_of_flags s rfl⟩,
    ⟨rfl, rfl, _, exec_sbb s r, readReg_accumulate s r _, differenceIn_of_flags s rfl⟩,
    ⟨rfl, rfl, _, exec_sbi s v, accumulate_accumulatorOnly rfl _, differenceIn_of_flags s rfl⟩⟩

/-- The flags say equal and below (R168, R169). -/
theorem sub8_flags_compare (cfg : Config.Params) (a v : Byte) :
    ((sub8 cfg a v false).flags.z = true ↔ a = v) ∧ ((sub8 cfg a v false).flags.cy = true ↔ a.toNat < v.toNat) := by
  have hres := sub8_toNat cfg a v false
  have ha := a.isLt
  have hv := v.isLt
  obtain ⟨hz, -, -⟩ := AluOut.flags_resultFlags (sub8 cfg a v false)
  simp only [Bool.toNat_false] at hres
  refine ⟨?_, ?_⟩
  · rw [hz, BitVec.toNat_eq]
    omega
  · exact (sub8_cy cfg a v false).trans (by rw [Bool.toNat_false, Nat.add_zero])

/-- Settles O46: the operand is read, then only the flags of the difference are written. -/
theorem compares : Obligations.Compares := by
  intro s r v
  refine ⟨⟨rfl, rfl, _, _, exec_cmp s r, ?_, keepsMemory_of_mem_eq (readReg_mem r s), differenceIn_of_flags s rfl,
      sub8_flags_compare _ _ _⟩,
    ⟨rfl, rfl, _, _, exec_cpi s v, rfl, keepsMemory_of_mem_eq rfl, differenceIn_of_flags s rfl,
      sub8_flags_compare _ _ _⟩⟩
  exact congrArg (State.setFlags _) (readReg_env_only s r)

/-! ### `DAD` (R145) -/

theorem exec_dad (s : State) (p : RegPair) :
    exec (.dad p) s = .next ((s.setHl (BitVec.ofNat 16 (s.hl.toNat + (readPair p s).toNat))).setCy
      (decide (65536 ≤ s.hl.toNat + (readPair p s).toNat))) := rfl

/-- Settles O41: `HL` takes the sum, `CY` what does not fit. -/
theorem dadAdds : Obligations.DadAdds := by
  intro s p
  refine ⟨rfl, rfl, _, exec_dad s p, keepsMemory_of_mem_eq rfl, rfl, ?_, decide_eq_true_iff⟩
  have hbytes (w : Word) : 256 * (hiByte w).toNat + (loByte w).toNat = w.toNat := by
    rw [← toNat_le16, le16_bytes]
  exact (hbytes _).trans (BitVec.toNat_ofNat _ _)

/-! ### The defaults of the parameter functions (R131, R148, R161) -/

theorem acAdd_standard_iff {cfg : Config.Params} (h : cfg.acAdd = .standard) (a b : Byte) (c : Bool) :
    acAdd cfg a b c = true ↔ 16 ≤ a.toNat % 16 + b.toNat % 16 + c.toNat := by
  simp [acAdd, h]

theorem acSub_standard_iff {cfg : Config.Params} (h : cfg.acSub = .standard) (a b : Byte) (c : Bool) :
    acSub cfg a b c = true ↔ b.toNat % 16 + c.toNat ≤ a.toNat % 16 := by
  simp [acSub, h]

/-- What the default `DAA_FN` adds for the low digit. -/
def daaLow (a : Byte) (ac : Bool) : Nat := if ac = true ∨ 9 < a.toNat % 16 then 6 else 0

/-- What the default `DAA_FN` adds for the high digit. -/
def daaHigh (a : Byte) (cy : Bool) : Nat :=
  if cy = true ∨ 9 < a.toNat / 16 ∨ 9 ≤ a.toNat / 16 ∧ 9 < a.toNat % 16 then 96 else 0

theorem daaLow_cases (a : Byte) (ac : Bool) : daaLow a ac = 0 ∨ daaLow a ac = 6 := by
  unfold daaLow
  split <;> simp

theorem daaHigh_cases (a : Byte) (cy : Bool) : daaHigh a cy = 0 ∨ daaHigh a cy = 96 := by
  unfold daaHigh
  split <;> simp

/-- The correction that the default `DAA_FN` adds is the sum of those for the two digits. -/
theorem daaStandard_eq (cfg : Config.Params) (a : Byte) (ac cy : Bool) :
    daaStandard cfg a ac cy =
      { res := BitVec.ofNat 8 (a.toNat + (BitVec.ofNat 8 (daaLow a ac + daaHigh a cy)).toNat)
        cy := decide (daaHigh a cy = 96)
        ac := acAdd cfg a (BitVec.ofNat 8 (daaLow a ac + daaHigh a cy)) false } := by
  simp [daaStandard, daaLow, daaHigh, Bool.or_assoc, ← decide_not]

/-- The default `DAA_FN` in numbers, where `AC_ADD` is the carry out of bit 3. -/
theorem daaStandard_spec {cfg : Config.Params} (h : cfg.acAdd = .standard) (a : Byte) (ac cy : Bool) :
    (daaStandard cfg a ac cy).res.toNat = (a.toNat + daaLow a ac + daaHigh a cy) % 256 ∧
    ((daaStandard cfg a ac cy).cy = true ↔ daaHigh a cy = 96) ∧
    ((daaStandard cfg a ac cy).ac = true ↔ 16 ≤ a.toNat % 16 + daaLow a ac) := by
  have hlow := daaLow_cases a ac
  have hhigh := daaHigh_cases a cy
  have hcorr : (BitVec.ofNat 8 (daaLow a ac + daaHigh a cy)).toNat = daaLow a ac + daaHigh a cy :=
    (BitVec.toNat_ofNat _ _).trans (Nat.mod_eq_of_lt (by omega))
  rw [daaStandard_eq]
  refine ⟨?_, decide_eq_true_iff, ?_⟩
  · rw [hcorr, BitVec.toNat_ofNat, Nat.add_assoc]
  · rw [acAdd_standard_iff h, hcorr, Bool.toNat_false]
    omega

theorem daaFn_standard {cfg : Config.Params} (h : cfg.daa = .standard) (a : Byte) (ac cy : Bool) :
    daaFn cfg a ac cy = daaStandard cfg a ac cy := by
  simp only [daaFn, h]

/-- Settles O44, function by function. -/
theorem defaultParameterFunctions : Obligations.DefaultParameterFunctions := by
  intro cfg a b c ac
  refine ⟨fun h => acAdd_standard_iff h a b c, fun h => acSub_standard_iff h a b c, fun h hv => ?_, fun h hv => ?_,
    fun h hac => ?_⟩
  · simp [acAna, h, hv]
  · simp [acAna, h, hv]
  · obtain ⟨hres, hcy, haux⟩ := daaStandard_spec hac a ac c
    rw [daaFn_standard h]
    refine ⟨hres, hcy.trans ?_, haux⟩
    unfold daaHigh
    split <;> simp_all

/-! ### `DAA` after an addition (R148) -/

/-- The decimal sum `10 * y + x` is recovered from the binary sum of packed-BCD bytes whose low digits and carry add up
to `x` and whose high digits to `y`. -/
theorem bcdSum_eq {a : Byte} {x y : Nat} (hx : x ≤ 19) (hy : y ≤ 18) (ha : a.toNat = (16 * y + x) % 256) :
    bcdSum a (decide (16 ≤ x)) (decide (256 ≤ 16 * y + x)) = some (10 * y + x) := by
  by_cases hlow : 16 ≤ x <;> by_cases hhigh : 256 ≤ 16 * y + x <;>
    simp only [bcdSum, hlow, hhigh, decide_true, decide_false, bit_eq_toNat, Bool.toNat_true, Bool.toNat_false] <;>
    rw [if_pos (by omega)] <;> congr 1 <;> omega

theorem toNat_packBcd {n : Nat} (h : n < 100) : (packBcd n).toNat = 16 * (n / 10) + n % 10 := by
  have htens : n / 10 % 10 = n / 10 := Nat.mod_eq_of_lt (by omega)
  rw [packBcd, BitVec.toNat_ofNat, htens]
  omega

/-- The low digit is corrected when the low digits add up to 10 or more, -/
theorem daaLow_of_bcd {a : Byte} {x y : Nat} (hx : x ≤ 19) (ha : a.toNat = (16 * y + x) % 256) :
    daaLow a (decide (16 ≤ x)) = if 10 ≤ x then 6 else 0 := by
  have hcarry : (decide (16 ≤ x) = true ∨ 9 < a.toNat % 16) ↔ 10 ≤ x := by
    rw [decide_eq_true_iff]
    omega
  simp only [daaLow, hcarry]

/-- and the high digit when the decimal sum is 100 or more. -/
theorem daaHigh_of_bcd {a : Byte} {x y : Nat} (hx : x ≤ 19) (hy : y ≤ 18) (ha : a.toNat = (16 * y + x) % 256) :
    daaHigh a (decide (256 ≤ 16 * y + x)) = if 100 ≤ 10 * y + x then 96 else 0 := by
  have hcarry : (decide (256 ≤ 16 * y + x) = true ∨ 9 < a.toNat / 16 ∨ 9 ≤ a.toNat / 16 ∧ 9 < a.toNat % 16) ↔
      100 ≤ 10 * y + x := by
    rw [decide_eq_true_iff]
    omega
  simp only [daaHigh, hcarry]

/-- The corrected binary sum is the packed-BCD sum, for each sum `x` of low digits and a carry and each sum `y` of high
digits. -/
theorem corrected_bcdSum : ∀ x < 20, ∀ y < 19,
    ((16 * y + x) % 256 + (if 10 ≤ x then 6 else 0) + if 100 ≤ 10 * y + x then 96 else 0) % 256 =
      16 * ((10 * y + x) % 100 / 10) + (10 * y + x) % 10 := by
  decide

/-- After the binary sum of packed-BCD bytes both choices of `DAA_FN` give the decimal sum. -/
theorem daaFn_of_bcd {cfg : Config.Params} (h : cfg.acAdd = .standard) {a : Byte} {x y : Nat} (hx : x ≤ 19)
    (hy : y ≤ 18) (ha : a.toNat = (16 * y + x) % 256) :
    let o := daaFn cfg a (decide (16 ≤ x)) (decide (256 ≤ 16 * y + x))
    o.res.toNat = 16 * ((10 * y + x) % 100 / 10) + (10 * y + x) % 10 ∧ (o.cy = true ↔ 100 ≤ 10 * y + x) := by
  cases hdaa : cfg.daa with
  | standard =>
    obtain ⟨hres, hcy, -⟩ := daaStandard_spec h a (decide (16 ≤ x)) (decide (256 ≤ 16 * y + x))
    rw [daaHigh_of_bcd hx hy ha] at hres hcy
    rw [daaLow_of_bcd hx ha, ha] at hres
    rw [daaFn_standard hdaa]
    refine ⟨?_, hcy.trans (by simp)⟩
    rw [hres]
    exact corrected_bcdSum x (Nat.lt_succ_of_le hx) y (Nat.lt_succ_of_le hy)
  | free =>
    have hfree : daaFn cfg a (decide (16 ≤ x)) (decide (256 ≤ 16 * y + x)) =
        { res := packBcd ((10 * y + x) % 100), cy := decide (100 ≤ 10 * y + x)
          ac := (Config.freeDaa a (decide (16 ≤ x)) (decide (256 ≤ 16 * y + x))).2.2 } := by
      simp only [daaFn, hdaa, daaFree, h, bcdSum_eq hx hy ha]
    rw [hfree]
    refine ⟨?_, decide_eq_true_iff⟩
    rw [toNat_packBcd (Nat.mod_lt _ (by decide))]
    omega

/-- An addition of packed-BCD bytes, then `DAA`. -/
theorem daa_after_add8 {s u : State} (h : s.cfg.acAdd = .standard) {v : Byte} {c : Bool} {d1 d0 e1 e0 : Nat}
    (hd1 : d1 < 10) (hd0 : d0 < 10) (he1 : e1 < 10) (he0 : e0 < 10) (ha : s.regs.a.toNat = 16 * d1 + d0)
    (hv : v.toNat = 16 * e1 + e0) (hu : u.cfg = s.cfg) :
    ∃ w, exec .daa (u.accumulate (add8 s.cfg s.regs.a v c)) = .next w ∧
      let n := 10 * d1 + d0 + (10 * e1 + e0) + c.toNat
      w.regs.a.toNat = 16 * (n % 100 / 10) + n % 10 ∧ (w.flags.cy = true ↔ 100 ≤ n) := by
  have hc := c.toNat_le
  have hsum : (add8 s.cfg s.regs.a v c).res.toNat = (16 * (d1 + e1) + (d0 + e0 + c.toNat)) % 256 := by
    rw [add8_toNat, ha, hv]
    congr 1
    omega
  have hcy : (add8 s.cfg s.regs.a v c).cy = decide (256 ≤ 16 * (d1 + e1) + (d0 + e0 + c.toNat)) := by
    rw [Bool.eq_iff_iff, add8_cy, ha, hv, decide_eq_true_iff]
    omega
  have hac : (add8 s.cfg s.regs.a v c).ac = decide (16 ≤ d0 + e0 + c.toNat) := by
    have hac' : (add8 s.cfg s.regs.a v c).ac = acAdd s.cfg s.regs.a v c := rfl
    rw [hac', Bool.eq_iff_iff, acAdd_standard_iff h, ha, hv, decide_eq_true_iff]
    omega
  obtain ⟨hres, hdec⟩ := daaFn_of_bcd h (by omega) (by omega) hsum
  rw [← hcy, ← hac] at hres hdec
  have hn : 10 * (d1 + e1) + (d0 + e0 + c.toNat) = 10 * d1 + d0 + (10 * e1 + e0) + c.toNat := by omega
  rw [hn] at hres hdec
  refine ⟨_, exec_daa _, ?_⟩
  rw [← hu] at hres hdec ⊢
  exact ⟨hres, hdec⟩

/-- Settles O43: each of the four forms ends as the addition of the two bytes does. -/
theorem daaGivesDecimalSum : Obligations.DaaGivesDecimalSum := by
  intro s i r v c d1 d0 e1 e0 hstandard hd1 hd0 he1 he0 ha hv hform
  have hdaa (u : State) (hu : u.cfg = s.cfg) := daa_after_add8 (c := c) hstandard hd1 hd0 he1 he0 ha hv hu
  rcases hform with ⟨rfl, rfl⟩ | ⟨rfl, rfl⟩ | ⟨rfl, rfl, rfl⟩ | ⟨rfl, rfl, rfl⟩
  · obtain ⟨w, hw⟩ := hdaa s rfl
    exact ⟨_, w, exec_adi s v, hw⟩
  · obtain ⟨w, hw⟩ := hdaa s rfl
    exact ⟨_, w, exec_aci s v, hw⟩
  · obtain ⟨w, hw⟩ := hdaa _ (readReg_cfg r s)
    exact ⟨_, w, exec_add s r, hw⟩
  · obtain ⟨w, hw⟩ := hdaa _ (readReg_cfg r s)
    exact ⟨_, w, exec_adc s r, hw⟩

end Sys2Proof.Differences
end

section
/-! The stack laws (44_stack.md, 43_control_transfer.md on `CALL` and `RET`): a push leaves its two bytes where the pop
reads them; `XTHL` and `SPHL`. -/

namespace Sys2Proof.StackLaws

open Sys2Proof.Machine
open Sys2Proof.Stack
open Sys2Proof.DataTransfer (keepsMemory_of_mem_eq setHl_le16)
open Sys2Proof.ControlTransfer (exec_call exec_ret returnFrom_eq)

section

variable {s : State}

/-! ### What stands on the stack after a push -/

/-- RAM stands at the two addresses below `SP`. -/
def RamBelowSp (s : State) : Prop := s.kindAt (s.sp - 1#16) = .ram ∧ s.kindAt (s.sp - 2#16) = .ram

theorem pushBytes_byteAt_other (hi lo : Byte) {x : Word} (h1 : x ≠ s.sp - 1#16) (h2 : x ≠ s.sp - 2#16) :
    (s.pushBytes hi lo).byteAt x = s.byteAt x := by
  obtain ⟨-, -, hbytes⟩ := s.pushBytes_stored hi lo
  refine (hbytes x).trans ?_
  simp only [List.foldl_cons, List.foldl_nil, h1, h2, false_and, if_false]
  rfl

theorem pushBytes_byteAt_high (h : RamBelowSp s) (hi lo : Byte) : (s.pushBytes hi lo).byteAt (s.sp - 1#16) = hi := by
  obtain ⟨-, -, hbytes⟩ := s.pushBytes_stored hi lo
  have hne : s.sp - 1#16 ≠ s.sp - 2#16 := by bv_omega
  have hram : ({ s with sp := s.sp - 2#16 } : State).kindAt (s.sp - 1#16) = .ram := h.1
  rw [hbytes]
  simp only [List.foldl_cons, List.foldl_nil, hne, hram, false_and, if_false, and_self, if_true]

theorem pushBytes_byteAt_low (h : RamBelowSp s) (hi lo : Byte) : (s.pushBytes hi lo).byteAt (s.sp - 2#16) = lo := by
  obtain ⟨-, -, hbytes⟩ := s.pushBytes_stored hi lo
  have hram : ({ s with sp := s.sp - 2#16 } : State).kindAt (s.sp - 2#16) = .ram := h.2
  rw [hbytes]
  simp only [List.foldl_cons, List.foldl_nil, hram, and_self, if_true]

/-- After a push both reads of a pop see the pushed bytes and change nothing, also with `PC` moved in between. -/
theorem reads_of_pushBytes (h : RamBelowSp s) (hi lo : Byte) {t : State} (hcfg : t.cfg = s.cfg)
    (hsp : t.sp = s.sp - 2#16) (hmem : t.mem = (s.pushBytes hi lo).mem) :
    t.memRead t.sp = (lo, t) ∧ t.memRead (t.sp + 1#16) = (hi, t) := by
  have haddr : s.sp - 2#16 + 1#16 = s.sp - 1#16 := by bv_omega
  have hbyte (x : Word) : t.byteAt x = (s.pushBytes hi lo).byteAt x := State.byteAt_congr _ _ hmem x
  have hkind (x : Word) : t.kindAt x = s.kindAt x := State.kindAt_congr _ _ hcfg x
  rw [hsp, haddr]
  refine ⟨?_, ?_⟩
  · rw [t.memRead_plain _ (.inl ((hkind _).trans h.2)), hbyte, pushBytes_byteAt_low h]
  · rw [t.memRead_plain _ (.inl ((hkind _).trans h.1)), hbyte, pushBytes_byteAt_high h]

/-- A pop after a push: the pushed bytes, `SP` as before the push. -/
theorem exec_pop_of_pushBytes (h : RamBelowSp s) (hi lo : Byte) (q : StackPair) :
    exec (.pop q) (s.pushBytes hi lo) = .next { s.pushBytes hi lo with
      sp := s.sp, regs := poppedRegs q lo hi s.regs, flags := poppedFlags q lo s.flags } := by
  obtain ⟨hlow, hhigh⟩ := reads_of_pushBytes h hi lo (s.pushBytes_cfg hi lo) rfl rfl
  have hsp : s.sp - 2#16 + 2#16 = s.sp := BitVec.sub_add_cancel _ _
  rw [exec_pop, hlow]
  simp only [hhigh]
  simp only [State.pushBytes_sp, hsp, State.pushBytes_regs, State.pushBytes_flags]

end

/-! ### The statements -/

/-- The bytes of a pair, the first-named register first; of `PSW` only `A`, which no pair holds. -/
def pairBytes (z : State) (x : StackPair) : Byte × Byte :=
  match x with
  | .bc => (z.regs.b, z.regs.c)
  | .de => (z.regs.d, z.regs.e)
  | .hl => (z.regs.h, z.regs.l)
  | .psw => (z.regs.a, z.regs.a)

theorem exec_push_pair (s : State) {p : StackPair} (h : p ≠ .psw) :
    exec (.push p) s = .next (s.pushBytes (pairBytes s p).1 (pairBytes s p).2) := by
  cases p with
  | psw => exact absurd rfl h
  | bc | de | hl => rfl

theorem pairBytes_popped_same {z u : State} {q : StackPair} {lo hi : Byte} (hq : q ≠ .psw)
    (hregs : u.regs = poppedRegs q lo hi z.regs) : pairBytes u q = (hi, lo) := by
  cases q with
  | psw => exact absurd rfl hq
  | bc | de | hl => simp only [pairBytes, hregs, poppedRegs]

theorem pairBytes_popped_other {z u : State} {q x : StackPair} {lo hi : Byte} (hq : q ≠ .psw) (hx : x ≠ q)
    (hregs : u.regs = poppedRegs q lo hi z.regs) : pairBytes u x = pairBytes z x := by
  cases q with
  | psw => exact absurd rfl hq
  | bc | de | hl => cases x <;> simp_all [pairBytes, poppedRegs]

theorem poppedFlags_pair {q : StackPair} (hq : q ≠ .psw) (lo : Byte) (f : Flags) : poppedFlags q lo f = f := by
  cases q with
  | psw => exact absurd rfl hq
  | bc | de | hl => rfl

/-- The flag byte gives the flags back. -/
theorem flagsOfByte_flagByteOut (s : State) : flagsOfByte s.flagByteOut.1 = s.flags := by
  obtain ⟨x5, x3, x1, hbyte, -⟩ := flagByteOut_xBits s
  rw [hbyte, flagsOfByte_flagByte]

/-- A return right after a call comes back past the call. -/
theorem exec_ret_of_callTo {s : State} (h : RamBelowSp s) (w : Word) :
    exec .ret (s.callTo w) = .next { s.callTo w with pc := s.pc, sp := s.sp } := by
  obtain ⟨hlow, hhigh⟩ := reads_of_pushBytes h (hiByte s.pc) (loByte s.pc) (t := s.callTo w) s.pushPc_cfg rfl rfl
  have hsp : (s.callTo w).sp + 2#16 = s.sp := BitVec.sub_add_cancel _ _
  rw [exec_ret, returnFrom_eq, hlow]
  simp only [hhigh]
  rw [hsp, le16_bytes]

/-- Settles O54: a pop after a push takes what was pushed; `RET` after `CALL` as well. -/
theorem stackLaws : Obligations.StackLaws := by
  intro s hram1 hram2 back
  have hram : RamBelowSp s := ⟨hram1, hram2⟩
  refine ⟨fun p q hp hq => ?_, ?_, fun w => ?_⟩
  · exact ⟨_, _, exec_push_pair s hp, exec_pop_of_pushBytes hram _ _ q,
      ⟨rfl, fun x h1 h2 => pushBytes_byteAt_other _ _ h1 h2⟩, pairBytes_popped_same (z := s) hq rfl,
      fun x hx => pairBytes_popped_other (z := s) hq hx rfl, poppedFlags_pair hq _ _⟩
  · have hram' : RamBelowSp s.flagByteOut.2 := by
      unfold RamBelowSp
      rwa [State.flagByteOut_sp, State.kindAt_congr s _ s.flagByteOut_cfg, State.kindAt_congr s _ s.flagByteOut_cfg]
    refine ⟨_, _, exec_push_psw s, exec_pop_of_pushBytes hram' _ _ .psw, ⟨s.flagByteOut_sp, fun x h1 h2 => ?_⟩, ?_,
      flagsOfByte_flagByteOut s⟩
    · rw [← s.flagByteOut_sp] at h1 h2
      exact (pushBytes_byteAt_other _ _ h1 h2).trans (State.byteAt_congr _ _ s.flagByteOut_mem x)
    · simp only [poppedRegs, State.flagByteOut_regs]
  · exact ⟨_, _, exec_call s w, exec_ret_of_callTo hram w, ⟨rfl, fun x h1 h2 => pushBytes_byteAt_other _ _ h1 h2⟩, rfl,
      s.pushPc_regs, s.pushPc_flags⟩

/-! ### `XTHL` and `SPHL` (R212, R213) -/

theorem exec_xthl (s : State) :
    let lo := s.memRead s.sp
    let hi := lo.2.memRead (s.sp + 1#16)
    exec .xthl s = .next (((hi.2.memWrite (s.sp + 1#16) s.regs.h).memWrite s.sp s.regs.l).setHl (le16 lo.1 hi.1)) := rfl

theorem exec_sphl (s : State) : exec .sphl s = .next (s.setSp s.hl) := rfl

/-- Writing the registers after the stores is writing them before. -/
theorem stored_setRegs {s t : State} {writes : List (Word × Byte)} (h : Stored s t writes) (g : Regs) :
    Stored (s.setRegs g) (t.setRegs g) writes := by
  obtain ⟨hframe, henv, hbytes⟩ := h
  exact ⟨congrArg (State.setRegs g) hframe, henv, hbytes⟩

/-- Settles O55: the two stores follow the reads; the registers are written last, which the stores do not see. -/
theorem xthlAndSphl : Obligations.XthlAndSphl := by
  intro s lo hi
  refine ⟨⟨rfl, rfl, _, exec_xthl s, ?_⟩, rfl, rfl, _, exec_sphl s, keepsMemory_of_mem_eq rfl, rfl, toNat_le16 _ _⟩
  have hbefore : ({ s with regs := { s.regs with h := hi.1, l := lo.1 }, env := hi.2.env } : State) =
      hi.2.setRegs { s.regs with h := hi.1, l := lo.1 } := by
    apply State.ext <;> simp [hi, lo]
  have hafter (t : State) (ht : t.regs = s.regs) :
      t.setHl (le16 lo.1 hi.1) = t.setRegs { s.regs with h := hi.1, l := lo.1 } := by
    rw [setHl_le16, ht]
    rfl
  rw [hbefore, hafter _ (by simp)]
  exact stored_setRegs (hi.2.memWrite_memWrite_stored (s.sp + 1#16) s.sp s.regs.h s.regs.l) _

end Sys2Proof.StackLaws
end

section
/-! `IN` and `OUT` (45_io.md), `EI` and `DI`, the unused opcodes (46_interrupt_and_other.md), `SIM` and `RIM`
(47_i8085_extra.md). -/

namespace Sys2Proof.PortsAndControl

open Sys2Proof.Machine
open Sys2Proof.DataTransfer (keepsMemory_of_mem_eq)
open Sys2Proof.Sampling (writeMasks_eq)
open Sys2Proof.StepForms (exec_ei)

section

variable (s : State)

/-! ### `IN` and `OUT` (R221, R222) -/

/-- `IN`: `A` and what the port read changes. -/
theorem exec_inPort (p : Byte) :
    let v := portAnswer s.cfg s.env.inputs p
    exec (.inPort p) s = .next { s with
      regs := { s.regs with a := v }
      env := { s.env with inputs := s.env.inputs + 1, history := s.env.history ++ [.input p v] } } := rfl

theorem exec_outPort (p : Byte) :
    exec (.outPort p) s = .next { s with env := { s.env with history := s.env.history ++ [.output p s.regs.a] } } := rfl

/-- Settles O56: each is one event, and `IN` loads `A` with the answer and counts itself. -/
theorem inputAndOutput : Obligations.InputAndOutput := by
  intro s p
  exact ⟨⟨rfl, rfl, _, exec_inPort s p, keepsMemory_of_mem_eq rfl, rfl, rfl, portAnswer_listed s.cfg _ p⟩,
    rfl, rfl, _, exec_outPort s p, keepsMemory_of_mem_eq rfl, rfl⟩

/-! ### `EI` and `DI` (R230, R231) -/

theorem exec_di :
    exec .di s = .next (s.setEnable false (s.cfg.diOwnEnd && s.inte && decide (s.eiPending = 0)) 0) := rfl

/-- Settles O57: both write the enable and the delay alone. -/
theorem enableAndDisable : Obligations.EnableAndDisable := by
  intro s
  refine ⟨⟨rfl, rfl, _, exec_ei s, keepsMemory_of_mem_eq rfl, ?_⟩,
    rfl, rfl, _, exec_di s, keepsMemory_of_mem_eq rfl, rfl, ?_⟩
  · cases hdelay : s.cfg.eiDelay <;> rfl
  · simp [and_assoc]

/-! ### `SIM` and `RIM` (R245, R246) -/

theorem exec_sim (h : s.cfg.variant = .i8085) :
    exec .sim s = .next (s.writeMasks (simMasks s.cfg.simMseLevel s.regs.a s.masks)) := by
  change execSim s = _
  simp only [execSim, h]

theorem exec_rim (h : s.cfg.variant = .i8085) :
    exec .rim s = .next (s.pinsForRim.2.setA
      (rimByte s.pinsForRim.1.1 s.pinsForRim.1.2.1 s.pinsForRim.1.2.2 s.inte s.masks)) := by
  change execRim s = _
  simp only [execRim, h]

/-- What `SIM` makes of the latches, latch by latch. -/
theorem simMasks_spec (level : Bool) (a : Byte) (m : Masks) :
    (a.getLsbD 3 = level → (simMasks level a m).m55 = a.getLsbD 0 ∧ (simMasks level a m).m65 = a.getLsbD 1 ∧
      (simMasks level a m).m75 = a.getLsbD 2) ∧
    (a.getLsbD 3 ≠ level → (simMasks level a m).m55 = m.m55 ∧ (simMasks level a m).m65 = m.m65 ∧
      (simMasks level a m).m75 = m.m75) ∧
    ((simMasks level a m).r75 = true ↔ m.r75 = true ∧ a.getLsbD 4 = false) ∧
    (simMasks level a m).sod = if a.getLsbD 6 then a.getLsbD 7 else m.sod := by
  refine ⟨fun h => ?_, fun h => ?_, ?_, rfl⟩
  · simp only [simMasks, h, beq_self_eq_true, if_true, and_self]
  · simp only [simMasks, beq_false_of_ne h, Bool.false_eq_true, if_false, and_self]
  · cases h : a.getLsbD 4 <;> simp only [simMasks, h] <;> simp

/-- The levels that `RIM` reads: those of the coming slot; after the script no request, and a free level of `SID`. -/
theorem pinsForRim_spec :
    s.pinsForRim.2 = { s with
      env := { s.env with draws := if s.env.slots = [] then s.env.draws + 1 else s.env.draws } } ∧
    s.pinsForRim.1.2.1 = s.nextSlot.i65 ∧ s.pinsForRim.1.2.2 = s.nextSlot.i55 ∧
    (s.env.slots ≠ [] → s.pinsForRim.1.1 = s.nextSlot.sid) := by
  unfold State.pinsForRim
  split
  next x rest hslots =>
    have hnext : s.nextSlot = x := by simp only [State.nextSlot, hslots]
    rw [if_neg (by simp [hslots]), hnext]
    exact ⟨rfl, rfl, rfl, fun _ => rfl⟩
  next hslots =>
    have hnext : s.nextSlot = Slot.quiet := by simp only [State.nextSlot, hslots]
    rw [if_pos hslots, hnext]
    exact ⟨rfl, rfl, rfl, absurd hslots⟩

/-- Settles O59: `SIM` writes the latches bit by bit, `RIM` reads the coming slot and the latches bit by bit. -/
theorem simAndRim : Obligations.SimAndRim := by
  intro s hv a
  obtain ⟨hload, hkeep, hr75, hsod⟩ := simMasks_spec s.cfg.simMseLevel a s.masks
  obtain ⟨hstate, hi65, hi55, hsid⟩ := pinsForRim_spec s
  obtain ⟨h0, h1, h2, h3, h4, h5, h6, h7⟩ :=
    rimByte_bits s.pinsForRim.1.1 s.pinsForRim.1.2.1 s.pinsForRim.1.2.2 s.inte s.masks
  refine ⟨⟨rfl, rfl, _, exec_sim s hv, keepsMemory_of_mem_eq (s.writeMasks_mem _), ?_⟩,
    rfl, rfl, _, exec_rim s hv, keepsMemory_of_mem_eq ?_, ?_⟩
  · rw [writeMasks_eq]
    exact ⟨rfl, hload, hkeep, hr75, hsod⟩
  · rw [hstate]
    rfl
  · refine ⟨?_, h0, h1, h2, h3, h6, h4.trans hi55, h5.trans hi65, fun hslots => h7.trans (hsid hslots)⟩
    rw [hstate]
    rfl

/-! ### The unused opcodes (R236) -/

variable {s}

theorem illegalOpcode_of_fault {b : Byte} {effect : State → State}
    (h : s.cfg.illegal = .fault ∨ s.cfg.variant = .i8085) : illegalOpcode b effect s = .fault (.illegalOpcode b) := by
  unfold illegalOpcode
  split <;> simp_all

theorem illegalOpcode_of_aliased {b : Byte} {effect : State → State} (h : s.cfg.illegal = .aliased)
    (hv : s.cfg.variant = .i8080) : illegalOpcode b effect s = .next (effect s) := by
  simp only [illegalOpcode, h, hv]

theorem exec_sim_i8080 (h : s.cfg.variant = .i8080) : exec .sim s = exec .unused30 s := by
  change execSim s = _
  simp only [execSim, h]
  rfl

theorem exec_rim_i8080 (h : s.cfg.variant = .i8080) : exec .rim s = exec .unused20 s := by
  change execRim s = _
  simp only [execRim, h]
  rfl

/-- Settles O60, row by row of the list. -/
theorem unusedOpcodesAct : Obligations.UnusedOpcodesAct := by
  intro s w i b hrow
  have hterms : s.cfg.variant = .i8080 → exec .sim s = exec .unused30 s ∧ exec .rim s = exec .unused20 s :=
    fun hv => ⟨exec_sim_i8080 hv, exec_rim_i8080 hv⟩
  simp only [List.mem_cons, Prod.mk.injEq, List.not_mem_nil, or_false] at hrow
  rcases hrow with ⟨rfl, rfl⟩ | ⟨rfl, rfl⟩ | ⟨rfl, rfl⟩ | ⟨rfl, rfl⟩ | ⟨rfl, rfl⟩ | ⟨rfl, rfl⟩ | ⟨rfl, rfl⟩ |
    ⟨rfl, rfl⟩ | ⟨rfl, rfl⟩ | ⟨rfl, rfl⟩ | ⟨rfl, rfl⟩ | ⟨rfl, rfl⟩
  -- seven rows stand for `NOP`, then one for `JMP`, one for `RET`, three for `CALL`
  iterate 7 exact ⟨rfl, illegalOpcode_of_fault, fun h hv => ⟨_, illegalOpcode_of_aliased h hv, rfl⟩, hterms⟩
  · exact ⟨rfl, illegalOpcode_of_fault, fun h hv => ⟨_, illegalOpcode_of_aliased h hv, rfl, rfl⟩, hterms⟩
  · exact ⟨rfl, illegalOpcode_of_fault, fun h hv => ⟨_, illegalOpcode_of_aliased h hv, rfl, rfl⟩, hterms⟩
  iterate 3 exact ⟨rfl, illegalOpcode_of_fault, fun h hv => ⟨_, illegalOpcode_of_aliased h hv, rfl, rfl, rfl⟩, hterms⟩

end

end Sys2Proof.PortsAndControl
end
